-- ==== Sys2Proof/Word.lean ====
section
/-! DEFINITION. The word types of GF128-CORE (spec 00_scope.md rules R7, R9): 32-bit bus words and
128-bit field elements, all unsigned, bit 0 the least significant. -/

namespace Sys2Proof

/-- One byte of a 16-byte string held by the host (R18). -/
abbrev Byte := BitVec 8

/-- One word of the register bus (R7: the bus data width is 32 bits). -/
abbrev Word := BitVec 32

/-- A 128-bit value: a field element, an exponent or a group order (R7, R10). -/
abbrev Elem := BitVec 128

/-- An offset inside the 256-byte register window (R7, R51). -/
abbrev Offset := BitVec 8

end Sys2Proof
end

