-- ==== Sys2Proof/Syntax.lean ====
section
/-! DEFINITION. The syntax of GF128-CORE: the eight commands, the named words of the register window, the
bus accesses and their responses, the events that reach the block, and the host statements of rule R77. -/

namespace Sys2Proof

/-- The eight commands (30_encoding.md R72), one constructor per row of the opcode table. Every operand is
implicit (R71), so no constructor has a field. -/
inductive Instr where
  | nop
  | gfmul
  | gfsqr
  | gfexp
  | gford
  | gfstr
  | gfjdg
  | selftest
deriving DecidableEq, Repr

/-- The five 128-bit data registers (10_state.md R24, R41). -/
inductive Reg128 where
  | a
  | b
  | e
  | r
  | ord
deriving DecidableEq, Repr

/-- The words of the register window by name (10_state.md R20). The four words of a 128-bit register are
numbered 0 (most significant) to 3 (R24). -/
inductive RegWord where
  | id
  | ctrl
  | status
  | cmd
  | thresh
  | strength
  | verdict
  | data (x : Reg128) (j : Fin 4)
deriving DecidableEq, Repr

/-- The width of a host access (20_memory.md R52); only `bits32` is legal. -/
inductive AccessWidth where
  | bits8
  | bits16
  | bits32
  | wider
deriving DecidableEq, Repr

/-- The direction of a host access, with the 32-bit value a write carries (R50). -/
inductive BusOp where
  | read
  | write (v : Word)
deriving DecidableEq, Repr

/-- One host access at a window offset (R50). -/
structure Access where
  width : AccessWidth
  off   : Offset
  op    : BusOp
deriving DecidableEq, Repr

/-- What the block answers to an access: a write accepted without error (an ignored or a dropped write
too, R55, R214), the word read (R54), or the bus error response (60_exceptions.md R185). -/
inductive BusResponse where
  | ok
  | data (v : Word)
  | busError (off : Offset)
deriving DecidableEq, Repr, Inhabited

/-- An event of the block's one total order (20_memory.md R62): a host access, a turn of the engine, or a
change of the reset input `rst_n` (70_reset_and_hazards.md R200). -/
inductive Event where
  | host (acc : Access)
  | engine
  | resetAssert
  | resetRelease
deriving DecidableEq, Repr

/-- The host statements of 30_encoding.md R77. Host variables and labels are numbered; a condition compares
one bit of a host variable, which is the only form the spec's own expansions use. -/
inductive HostStmt where
  | wr (off : Offset) (v : Word)
  | rd (off : Offset) (t : Nat)
  | label (l : Nat)
  | ifGoto (t bit : Nat) (value : Bool) (l : Nat)
deriving DecidableEq, Repr

/-- The host-side InvalidArgument checks of 60_exceptions.md R182 that never reach the block. -/
inductive InvalidArgument where
  /-- The key is not 16 or 32 bytes long. -/
  | keyLength
  /-- The hash key is not exactly 16 bytes long. -/
  | hashKeyLength
deriving DecidableEq, Repr

end Sys2Proof
end

