-- ==== Sys2Proof/WellFormed.lean ====
section
/-! DEFINITION. What the spec calls well formed: a command (R71), a command word (R70, R73), a host access
(R52, R53) and a host program's labels (R77). -/

namespace Sys2Proof

/-- Every command is well formed: it has no operand field that could be out of range (R71). -/
def Instr.wellFormed : Instr → Bool
  | .nop => true
  | .gfmul => true
  | .gfsqr => true
  | .gfexp => true
  | .gford => true
  | .gfstr => true
  | .gfjdg => true
  | .selftest => true

/-- Format C (R70): the reserved field RSV, bits 31 to 4, must be 0, and OP, bits 3 to 0, is one of the
eight codes of R72. -/
def wordWellFormed (w : Word) : Bool :=
  decide (w.extractLsb' 4 28 = 0#28) && decide ((w.extractLsb' 0 4).toNat < 8)

/-- A legal host access (R52, R53): 32 bits wide, aligned to 4, at a mapped offset (below 0x70, not 0x1C). -/
def Access.wellFormed (acc : Access) : Bool :=
  decide (acc.width = .bits32) && decide (acc.off.toNat % 4 = 0)
    && decide (acc.off.toNat < 0x70) && decide (acc.off.toNat ≠ 0x1C)

/-- The labels a host program defines (R77). -/
def hostLabels : List HostStmt → List Nat
  | [] => []
  | .label l :: rest => l :: hostLabels rest
  | .wr _ _ :: rest => hostLabels rest
  | .rd _ _ :: rest => hostLabels rest
  | .ifGoto _ _ _ _ :: rest => hostLabels rest

/-- Whether the target of a host statement's jump is among the given labels. -/
def HostStmt.targetIn (labels : List Nat) : HostStmt → Bool
  | .ifGoto _ _ _ l => labels.contains l
  | .wr _ _ => true
  | .rd _ _ => true
  | .label _ => true

/-- A host program is well formed when every `goto` names one of its labels (R77). -/
def hostWellFormed (p : List HostStmt) : Bool :=
  p.all (HostStmt.targetIn (hostLabels p))

end Sys2Proof
end

