-- ==== Sys2Proof/Decode.lean ====
section
/-! DEFINITION. The decoder of command words (30_encoding.md R70 to R75), total on all 2^32 words and
rejecting by name, and the encoder. The bus carries a whole 32-bit word, so a command word has no byte
order (20_memory.md R56). -/

namespace Sys2Proof

/-- Why a word is ILLEGAL (R73, R74). An ILLEGAL word is no refusal of the model: the engine completes it
with ERR_ILLEGAL. -/
inductive IllegalWord where
  /-- The reserved field RSV is not 0, whatever OP is. -/
  | reservedBits (rsv : BitVec 28)
  /-- RSV is 0 and OP is one of the reserved codes 0x8 to 0xF. -/
  | reservedOpcode (op : BitVec 4)
deriving DecidableEq, Repr

/-- What the decoder answers (R73): one of the eight commands, or ILLEGAL. -/
inductive Decoded where
  | command (i : Instr)
  | illegal (why : IllegalWord)
deriving DecidableEq, Repr

/-- The field OP, bits 3 to 0 (R70). -/
def opField (w : Word) : BitVec 4 := w.extractLsb' 0 4

/-- The field RSV, bits 31 to 4 (R70). -/
def rsvField (w : Word) : BitVec 28 := w.extractLsb' 4 28

/-- The opcode map (R72). -/
def decodeOp (op : BitVec 4) : Decoded :=
  match op.toNat with
  | 0x0 => .command .nop
  | 0x1 => .command .gfmul
  | 0x2 => .command .gfsqr
  | 0x3 => .command .gfexp
  | 0x4 => .command .gford
  | 0x5 => .command .gfstr
  | 0x6 => .command .gfjdg
  | 0x7 => .command .selftest
  | _ => .illegal (.reservedOpcode op)

/-- The decode function (R73). -/
def decode (w : Word) : Decoded :=
  if rsvField w ≠ 0 then .illegal (.reservedBits (rsvField w)) else decodeOp (opField w)

/-- The OP code of each command (R72). -/
def opcodeOf : Instr → BitVec 4
  | .nop => 0x0
  | .gfmul => 0x1
  | .gfsqr => 0x2
  | .gfexp => 0x3
  | .gford => 0x4
  | .gfstr => 0x5
  | .gfjdg => 0x6
  | .selftest => 0x7

/-- The word of a command (R70, R72): RSV = 0 above OP. A command is always one word (R75). -/
def encode (i : Instr) : Word := 0#28 ++ opcodeOf i

/-- The command of a decoded word, none where it is ILLEGAL. -/
def decodedCommand : Decoded → Option Instr
  | .command i => some i
  | .illegal _ => none

/-- The instruction the decoder reads from the low `nbits` bits of `w`, bits above `nbits` being 0. A value
that does not fit one 32-bit word is no command (R75). -/
def decodeTableWord (nbits w : Nat) : Option Instr :=
  if w % 2 ^ nbits < 2 ^ 32 then decodedCommand (decode (BitVec.ofNat 32 (w % 2 ^ nbits))) else none

end Sys2Proof
end

