-- ==== Sys2Proof/Config.lean ====
section
/-! DEFINITION. What an implementation or platform fixes, and the free values: the open parameter GF_BASE
(00_scope.md R8) and the bus response to an access made during reset (93_implementation_defined.md I4).
The other open parameter, LATENCY, is the schedule held in State (assumption 1). -/

namespace Sys2Proof

/-- The page of the register window: GF_BASE divided by 256 (R8(a): GF_BASE is a multiple of 256 chosen by
the platform). It has no body: nothing can be proved of its value. -/
opaque Config.gfBasePage : Nat

/-- The open parameter GF_BASE: the bus address of offset 0x00 of the window (R8(a), R51). -/
def Config.gfBase : Nat := 256 * Config.gfBasePage

/-- FREE VALUE (assumption 4). The response to the n-th recorded access when that access is made while
`rst_n` is asserted: the spec says nothing of it (R200, I4). -/
opaque Config.responseInReset : Nat → Access → BusResponse

end Sys2Proof
end

