-- ==== Sys2Proof/Machine/State.lean ====
section
/-! DEFINITION. The state of the block (10_state.md R42, every field), the model's own fields (the input
`rst_n`, the schedule of events still to come, the bus responses given), the reasons a step can stop, and
the state after reset (70_reset_and_hazards.md R200). -/

namespace Sys2Proof.Machine

/-- GF128-CORE. The fields from `ctrlIe` to `ord` are the complete model state of R42; the last three are
the model's own (assumptions 1, 3 and 5). There is no program counter (R40), no general register file
(R41) and no memory (R13); ID, STATUS.ERR, `irq` and every reserved field are functions of these fields. -/
structure State where
  /-- CTRL.IE, the interrupt enable (R22). -/
  ctrlIe : Bool
  /-- STATUS.BUSY: a command is pending (R23, R37). -/
  busy : Bool
  /-- STATUS.DONE: a command has completed, the pending interrupt (R23, R186). -/
  done : Bool
  /-- STATUS.STP: a self-test has passed (R23, R154). -/
  stp : Bool
  /-- STATUS.STF: a self-test has failed, sticky until reset (R23, R154). -/
  stf : Bool
  /-- STATUS.WERR: a write was dropped while busy (R23, R214). -/
  werr : Bool
  /-- STATUS.ERRCODE (R23, R180). -/
  errcode : BitVec 4
  /-- CMD: the last word issued (R33). -/
  cmd : Word
  /-- THRESH.T, the Security Threshold of GFJDG (R30). -/
  thresh : BitVec 8
  /-- STRENGTH.S (R31). -/
  strength : BitVec 8
  /-- VERDICT.SAFE (R32). -/
  safe : Bool
  /-- Register A (R25). -/
  a : Elem
  /-- Register B (R26). -/
  b : Elem
  /-- Register E (R27). -/
  e : Elem
  /-- Register R (R28). -/
  r : Elem
  /-- Register ORD (R29). -/
  ord : Elem
  /-- The model's own: the reset input is asserted (`rst_n` low, R200). -/
  inReset : Bool
  /-- The model's own: the events still to come, in the block's total order (R62). -/
  inputs : List Event
  /-- The model's own: the responses to the host's accesses so far, oldest first. -/
  responses : List BusResponse
deriving DecidableEq, Repr

/-- Why the block stops with a fault: never. No event stops the block (R188: no trap mechanism; R185: a bus
error is a response and changes no state; R194, R218: never undefined behaviour), so the type is empty.
Safe: nothing is cut off. -/
inductive Fault where
deriving DecidableEq, Repr

/-- Why the model refuses an instruction. -/
inductive Refusal where
  /-- Raised only by an arm of `exec` whose instruction has no meaning yet; no arm is one now. Safe. -/
  | notModelled (mnemonic : String)
deriving DecidableEq, Repr

/-- The block right after reset (R200, with the reset values of R20 to R33): idle, not verified, interrupts
disabled, THRESH.T = 126. The model's own fields start empty, with `rst_n` released (assumptions 3, 5). -/
def State.reset : State where
  ctrlIe := false
  busy := false
  done := false
  stp := false
  stf := false
  werr := false
  errcode := 0
  cmd := 0
  thresh := 126
  strength := 0
  safe := false
  a := 0
  b := 0
  e := 0
  r := 0
  ord := 0
  inReset := false
  inputs := []
  responses := []

end Sys2Proof.Machine
end

