-- ==== Sys2Proof/Machine/Flags.lean ====
section
/-! DEFINITION. The status flags: the error codes (60_exceptions.md R180), the STATUS word (10_state.md R23,
20_memory.md R54) and the interrupt output (R35). The block has no condition codes (R36). -/

namespace Sys2Proof.Machine

/-- The error codes a completion can report (R180); codes 6 to 15 are never written. -/
inductive ErrCode where
  | ok
  | illegal
  | thresh
  | zero
  | selftest
  | notVerified
deriving DecidableEq, Repr

/-- The value of STATUS.ERRCODE for each code (R180). -/
def errBits : ErrCode → BitVec 4
  | .ok => 0
  | .illegal => 1
  | .thresh => 2
  | .zero => 3
  | .selftest => 4
  | .notVerified => 5

/-- One bit of a bus word. -/
def bitWord (b : Bool) : Word := if b then 1 else 0

/-- STATUS.ERR: 1 iff ERRCODE is not 0 (R23, R180). -/
def errFlag (s : State) : Bool := decide (s.errcode ≠ 0)

/-- The word a read of STATUS returns (R54); reserved bits read 0 (R23). -/
def statusWord (s : State) : Word :=
  s.errcode.setWidth 32 <<< 8 ||| bitWord s.werr <<< 5 ||| bitWord s.stf <<< 4 ||| bitWord s.stp <<< 3
    ||| bitWord (errFlag s) <<< 2 ||| bitWord s.done <<< 1 ||| bitWord s.busy

/-- The level-sensitive output `irq` = CTRL.IE AND STATUS.DONE (R35, R186). -/
def irq (s : State) : Bool := s.ctrlIe && s.done

end Sys2Proof.Machine
end

