-- ==== Sys2Proof/Machine/Operands.lean ====
section
/-! DEFINITION. Operand assembly and the 128-bit registers as bus words: the implicit operands of a command
(30_encoding.md R71) and the word layout of a 128-bit register (10_state.md R24). -/

namespace Sys2Proof.Machine

/-- The lowest bit of word j of a 128-bit register: word j is bits 127 − 32j down to 96 − 32j (R24). -/
def wordShift (j : Fin 4) : Nat := 96 - 32 * j.val

/-- Word j of a 128-bit value, word 0 the most significant (R24). -/
def getWord (x : Elem) (j : Fin 4) : Word := x.extractLsb' (wordShift j) 32

/-- A 128-bit value with word j replaced and every other bit unchanged (R24). -/
def setWord (x : Elem) (j : Fin 4) (v : Word) : Elem :=
  (x &&& ~~~(0xFFFFFFFF#128 <<< wordShift j)) ||| (v.setWidth 128 <<< wordShift j)

/-- The value of a 128-bit register (R12). -/
def readReg128 (x : Reg128) (s : State) : Elem :=
  match x with
  | .a => s.a
  | .b => s.b
  | .e => s.e
  | .r => s.r
  | .ord => s.ord

/-- The first operand x, or the element h (R25, R71). -/
def operandA (s : State) : Elem := s.a

/-- The second operand y of GFMUL (R26, R71). -/
def operandB (s : State) : Elem := s.b

/-- The exponent n of GFEXP, an unsigned integer (R27, R71). -/
def operandE (s : State) : Nat := s.e.toNat

/-- The threshold t of GFJDG, an unsigned integer (R30, R71). -/
def operandT (s : State) : Nat := s.thresh.toNat

end Sys2Proof.Machine
end

