-- ==== Sys2Proof/Machine/Ops.lean ====
section
/-! DEFINITION. The named operations over the state: issue and completion of a command
(70_reset_and_hazards.md R210, 60_exceptions.md R181), the shared checks (41_order_oracle.md R122,
43_safety_judge.md R140), reset (R200), and the recording of a bus response. The block takes no exception
and returns from none (R188, R189): `complete` with a nonzero code is what an error does. -/

namespace Sys2Proof.Machine

/-- complete(code): ends the running command and writes nothing but ERRCODE, DONE and BUSY (R181). -/
def complete (code : ErrCode) (s : State) : State :=
  { s with errcode := errBits code, done := true, busy := false }

/-- `c := check; if c != OK then complete(c)`: a command goes on to `next` only where its check answers OK
(R122, R181). -/
def orComplete (code : ErrCode) (s next : State) : State :=
  if code = .ok then next else complete code s

/-- verified_check() (R122). -/
def verifiedCheck (s : State) : ErrCode :=
  if s.stf then .selftest else if s.stp then .ok else .notVerified

/-- zero_check() (R122, R124). -/
def zeroCheck (s : State) : ErrCode :=
  if operandA s = 0 then .zero else .ok

/-- threshold_check() (R140): THRESH.T must lie in 1 to 128; it is never clamped. -/
def thresholdCheck (s : State) : ErrCode :=
  if operandT s < 1 ∨ 128 < operandT s then .thresh else .ok

/-- Issue(v) (R210): any word is accepted, ILLEGAL ones too. -/
def issue (w : Word) (s : State) : State :=
  { s with cmd := w, busy := true, done := false, errcode := 0 }

/-- The word the engine acts on: the one CMD holds (R64, R73). -/
def fetchWord (s : State) : Word := s.cmd

/-- Places a word as the pending command, with no event before the engine's turn: CMD, BUSY and the
schedule are all the engine's step needs (R37, assumption 7). -/
def placeCommand (w : Word) (s : State) : State :=
  { s with cmd := w, busy := true, inputs := [] }

/-- The response to a host access, recorded after the earlier ones (assumption 3). -/
def respond (resp : BusResponse) (s : State) : State :=
  { s with responses := s.responses ++ [resp] }

/-- `rst_n` is asserted: every register takes its reset value and a pending command is discarded (R200). -/
def assertReset (s : State) : State :=
  { State.reset with inReset := true, inputs := s.inputs, responses := s.responses }

/-- `rst_n` is released (R200); no register changes, no command is issued, no self-test runs (R202). -/
def releaseReset (s : State) : State :=
  { s with inReset := false }

end Sys2Proof.Machine
end

