-- ==== Sys2Proof/Machine/Bus.lean ====
section
/-! DEFINITION. The register bus (20_memory.md): the address map (10_state.md R20), BusRead (R54), BusWrite
(R55), the bus error response (R52, R53, R185), and the place of the window in the platform's address
space (R50, R51). -/

namespace Sys2Proof.Machine

/-- The offset of word 0 of a 128-bit register (R20). -/
def regBase : Reg128 → Nat
  | .a => 0x20
  | .b => 0x30
  | .e => 0x40
  | .r => 0x50
  | .ord => 0x60

/-- The offset of each word of the window (R20, R24). -/
def offsetOf : RegWord → Offset
  | .id => 0x00
  | .ctrl => 0x04
  | .status => 0x08
  | .cmd => 0x0C
  | .thresh => 0x10
  | .strength => 0x14
  | .verdict => 0x18
  | .data x j => BitVec.ofNat 8 (regBase x + 4 * j.val)

/-- The register word at an offset; none where the offset is misaligned or unmapped (R20, R53). -/
def regAt (off : Offset) : Option RegWord :=
  match off.toNat with
  | 0x00 => some .id
  | 0x04 => some .ctrl
  | 0x08 => some .status
  | 0x0C => some .cmd
  | 0x10 => some .thresh
  | 0x14 => some .strength
  | 0x18 => some .verdict
  | 0x20 => some (.data .a 0)
  | 0x24 => some (.data .a 1)
  | 0x28 => some (.data .a 2)
  | 0x2C => some (.data .a 3)
  | 0x30 => some (.data .b 0)
  | 0x34 => some (.data .b 1)
  | 0x38 => some (.data .b 2)
  | 0x3C => some (.data .b 3)
  | 0x40 => some (.data .e 0)
  | 0x44 => some (.data .e 1)
  | 0x48 => some (.data .e 2)
  | 0x4C => some (.data .e 3)
  | 0x50 => some (.data .r 0)
  | 0x54 => some (.data .r 1)
  | 0x58 => some (.data .r 2)
  | 0x5C => some (.data .r 3)
  | 0x60 => some (.data .ord 0)
  | 0x64 => some (.data .ord 1)
  | 0x68 => some (.data .ord 2)
  | 0x6C => some (.data .ord 3)
  | _ => none

/-- The value of ID, the ASCII string "GF12" (R21). -/
def idWord : Word := 0x47463132

/-- The value a legal read of a register word returns (R54); no read changes state. -/
def readReg (w : RegWord) (s : State) : Word :=
  match w with
  | .id => idWord
  | .ctrl => bitWord s.ctrlIe
  | .status => statusWord s
  | .cmd => s.cmd
  | .thresh => s.thresh.setWidth 32
  | .strength => s.strength.setWidth 32
  | .verdict => bitWord s.safe
  | .data x j => getWord (readReg128 x s) j

/-- A write that is taken only while idle: while busy it is dropped and sets WERR (R55, R214). -/
def whenIdle (s next : State) : State :=
  if s.busy then { s with werr := true } else next

/-- A write to STATUS: bit 1 clears DONE, bit 5 clears WERR, every other bit is ignored (R23, R55). -/
def writeStatus (v : Word) (s : State) : State :=
  { s with done := s.done && !v.getLsbD 1, werr := s.werr && !v.getLsbD 5 }

/-- A write to one word of a 128-bit register: A, B and E while idle; R and ORD are read-only (R55). -/
def writeData (x : Reg128) (j : Fin 4) (v : Word) (s : State) : State :=
  match x with
  | .a => whenIdle s { s with a := setWord s.a j v }
  | .b => whenIdle s { s with b := setWord s.b j v }
  | .e => whenIdle s { s with e := setWord s.e j v }
  | .r => s
  | .ord => s

/-- What a legal write of a register word does (R55); a write to a read-only register is ignored. -/
def writeReg (w : RegWord) (v : Word) (s : State) : State :=
  match w with
  | .id => s
  | .ctrl => { s with ctrlIe := v.getLsbD 0 }
  | .status => writeStatus v s
  | .cmd => whenIdle s (issue v s)
  | .thresh => whenIdle s { s with thresh := v.extractLsb' 0 8 }
  | .strength => s
  | .verdict => s
  | .data x j => writeData x j v s

/-- A legal access of a register word, with its response. -/
def accessReg (w : RegWord) (op : BusOp) (s : State) : State :=
  match op with
  | .read => respond (.data (readReg w s)) s
  | .write v => respond .ok (writeReg w v s)

/-- The bus outside reset: an access that is not 32 bits wide, misaligned (R52) or unmapped (R53) answers
BusError and changes no register (R185). -/
def busAccess (acc : Access) (s : State) : State :=
  if acc.width ≠ .bits32 ∨ acc.off.toNat % 4 ≠ 0 then respond (.busError acc.off) s
  else
    match regAt acc.off with
    | none => respond (.busError acc.off) s
    | some w => accessReg w acc.op s

/-- One host access (R50). While `rst_n` is asserted it has no effect and its response is a free value
(R200, I4, assumption 4). -/
def hostAccess (acc : Access) (s : State) : State :=
  if s.inReset then respond (Config.responseInReset s.responses.length acc) s else busAccess acc s

/-- The window offset of a bus address; none where the address is not addressed to the block (R50, R51). -/
def windowOffset (addr : Nat) : Option Offset :=
  if Config.gfBase ≤ addr ∧ addr ≤ Config.gfBase + 0xFF then some (BitVec.ofNat 8 (addr - Config.gfBase))
  else none

/-- The event a bus master's access at an address is for the block (R50, R51, R13); none outside the window. -/
def eventAt (addr : Nat) (width : AccessWidth) (op : BusOp) : Option Event :=
  (windowOffset addr).map fun off => .host { width := width, off := off, op := op }

/-- The orders the block may perform two events in that arrive together (R187): reset comes first, and
otherwise both orders are admitted. -/
def ordersTogether (x y : Event) : List (List Event) :=
  if x = .resetAssert then [[x, y]]
  else if y = .resetAssert then [[y, x]]
  else [[x, y], [y, x]]

end Sys2Proof.Machine
end

