-- ==== Sys2Proof/Machine/Gf128.lean ====
section
/-! DEFINITION. The pure functions of the block (00_scope.md R14): the GF(2^128) multiplier, squarer and
exponentiation engine (40_gf128_arithmetic.md), the order oracle (41_order_oracle.md), the strength
evaluator (42_strength_evaluator.md) and the judge (43_safety_judge.md), with their constants (R7, R153). -/

namespace Sys2Proof.Machine

/-- RC, the reduction constant (R7, R100). -/
def reductionConst : Elem := 0xE1000000000000000000000000000000

/-- ONE, the multiplicative identity: only bit 127 set (R7, R10). -/
def gfOne : Elem := 0x80000000000000000000000000000000

/-- NGRP, the order of the multiplicative group (R7, R120). -/
def groupOrder : Nat := 2 ^ 128 - 1

/-- FACTORS, the Known Factorization of 2^128 − 1, in the source's order (R7, R120). -/
def factors : List Nat := [3, 5, 17, 257, 641, 65537, 274177, 6700417, 67280421310721]

/-- VW, the weak self-test constant (R153). -/
def selftestWeak : Elem := 0x4EBB4ECC7128973C9B889C8BDF980D7A

/-- VS, the safe self-test constant (R153). -/
def selftestSafe : Elem := 0xFDE4FBAE4A09E020EFF722969F83832B

/-- The fixed threshold of the self-test (R7, R154). -/
def selftestThreshold : Nat := 126

/-- Multiplication of the shifted operand by x: a right shift, with RC added where bit 0 falls out (R100). -/
def shiftReduce (v : Elem) : Elem :=
  if v.getLsbD 0 then (v >>> 1) ^^^ reductionConst else v >>> 1

/-- The multiply loop of R100: `i` iterations are left, over bits i − 1 down to 0 of `y`; `z` is the
accumulator and `v` the shifted operand. -/
def gfMulLoop (y : Elem) : Nat → Elem → Elem → Elem
  | 0, z, _ => z
  | i + 1, z, v => gfMulLoop y i (if y.getLsbD i then z ^^^ v else z) (shiftReduce v)

/-- gf_mul(x, y): exactly 128 iterations, from bit 127 of y down to bit 0 (R100, R102). -/
def gfMul (x y : Elem) : Elem := gfMulLoop y 128 0 x

/-- gf_sqr(x) (R103). -/
def gfSqr (x : Elem) : Elem := gfMul x x

/-- bitlen(n): the least k with n < 2^k (R11). -/
def bitlen (n : Nat) : Nat := if n = 0 then 0 else n.log2 + 1

/-- gf_exp with the recursion depth left as its first argument (R106). -/
def gfExpDepth : Nat → Elem → Nat → Elem
  | 0, _, _ => gfOne
  | d + 1, x, n =>
    if n = 0 then gfOne
    else if n % 2 = 1 then gfMul x (gfExpDepth d (gfSqr x) (n / 2))
    else gfExpDepth d (gfSqr x) (n / 2)

/-- gf_exp(x, n) (R106); the recursion depth is at most bitlen(n). -/
def gfExp (x : Elem) (n : Nat) : Elem := gfExpDepth (bitlen n) x n

/-- One turn of the order loop (R120): the factor p is required where x^(NGRP div p) is not ONE. -/
def orderStep (x : Elem) (o p : Nat) : Nat :=
  if gfExp x (groupOrder / p) ≠ gfOne then o * p else o

/-- The order loop over a list of factors (R120, R125). -/
def orderOver (fs : List Nat) (x : Elem) : Nat := fs.foldl (orderStep x) 1

/-- gf_order(x) (R120), stated by the spec for x ≠ 0; no command applies it to 0 (R124). -/
def gfOrder (x : Elem) : Nat := orderOver factors x

/-- strength_of(o) = floor(log2(o)) (R130). -/
def strengthOf (o : Nat) : Nat := bitlen o - 1

/-- judge(s, t) (R140). -/
def judge (s t : Nat) : Bool := decide (t ≤ s)

end Sys2Proof.Machine
end

