-- ==== Sys2Proof/Machine/Arith.lean ====
section
/-! DEFINITION. The field commands GFMUL, GFSQR and GFEXP (40_gf128_arithmetic.md). None is gated by the
self-test, none has an error code, and any operand is legal, 0 too. -/

namespace Sys2Proof.Machine

/-- The end of a field command: its result goes to R and it completes with OK (R28, R34). -/
def finishField (result : Elem) (s : State) : State := complete .ok { s with r := result }

/-- GFMUL: R <- gf_mul(A, B) (R104). -/
def execGfmul (s : State) : Host.Outcome State Fault Refusal :=
  .next (finishField (gfMul (operandA s) (operandB s)) s)

/-- GFSQR: R <- gf_sqr(A) (R105); B is not read. -/
def execGfsqr (s : State) : Host.Outcome State Fault Refusal :=
  .next (finishField (gfSqr (operandA s)) s)

/-- GFEXP: R <- gf_exp(A, E), the exponent used as written (R108). -/
def execGfexp (s : State) : Host.Outcome State Fault Refusal :=
  .next (finishField (gfExp (operandA s) (operandE s)) s)

end Sys2Proof.Machine
end

