-- ==== Sys2Proof/Machine/Control.lean ====
section
/-! DEFINITION. NOP and SELFTEST (44_selftest_and_control.md), and the completion of an ILLEGAL word
(30_encoding.md R74). -/

namespace Sys2Proof.Machine

/-- NOP: complete(OK) and nothing else (R150). -/
def execNop (s : State) : Host.Outcome State Fault Refusal := .next (complete .ok s)

/-- The verdict of a self-test constant at the fixed threshold 126 (R154). -/
def selftestVerdict (v : Elem) : Bool := judge (strengthOf (gfOrder v)) selftestThreshold

/-- The self-test has passed: STP is set (R154). -/
def selftestPass (s : State) : State := complete .ok { s with stp := true }

/-- The self-test has found a wrong verdict: STP is cleared and STF is set until reset (R154). -/
def selftestFail (s : State) : State := complete .selftest { s with stp := false, stf := true }

/-- SELFTEST (R154): refused with ERR_SELFTEST once STF is set; else VW must be judged unsafe and VS safe. -/
def execSelftest (s : State) : Host.Outcome State Fault Refusal :=
  .next
    (if s.stf then complete .selftest s
     else if selftestVerdict selftestWeak = false ∧ selftestVerdict selftestSafe = true then selftestPass s
     else selftestFail s)

/-- What an ILLEGAL word does: complete(ERR_ILLEGAL), and nothing else changes (R74). -/
def completeIllegal (s : State) : State := complete .illegal s

end Sys2Proof.Machine
end

