-- ==== Sys2Proof/Machine/Strength.lean ====
section
/-! DEFINITION. The gated commands GFORD (41_order_oracle.md R123), GFSTR (42_strength_evaluator.md R131)
and GFJDG (43_safety_judge.md R141), with the check priority of 60_exceptions.md R183. -/

namespace Sys2Proof.Machine

/-- ORD <- o, a group order of at most 128 bits (R29). -/
def setOrder (o : Nat) (s : State) : State := { s with ord := BitVec.ofNat 128 o }

/-- STRENGTH.S <- v, a value of 8 bits (R31). -/
def setStrength (v : Nat) (s : State) : State := { s with strength := BitVec.ofNat 8 v }

/-- VERDICT.SAFE <- v (R32). -/
def setVerdict (v : Bool) (s : State) : State := { s with safe := v }

/-- GFORD: ORD <- gf_order(A), after verified_check and zero_check (R123). -/
def execGford (s : State) : Host.Outcome State Fault Refusal :=
  .next
    (orComplete (verifiedCheck s) s
      (orComplete (zeroCheck s) s
        (complete .ok (setOrder (gfOrder (operandA s)) s))))

/-- GFSTR: ORD <- gf_order(A) and STRENGTH.S <- strength_of of it, after the same checks (R131). -/
def execGfstr (s : State) : Host.Outcome State Fault Refusal :=
  .next
    (orComplete (verifiedCheck s) s
      (orComplete (zeroCheck s) s
        (complete .ok
          (setStrength (strengthOf (gfOrder (operandA s))) (setOrder (gfOrder (operandA s)) s)))))

/-- GFJDG: ORD, STRENGTH.S and VERDICT.SAFE, after verified_check, threshold_check and zero_check in that
order (R141, R183). -/
def execGfjdg (s : State) : Host.Outcome State Fault Refusal :=
  .next
    (orComplete (verifiedCheck s) s
      (orComplete (thresholdCheck s) s
        (orComplete (zeroCheck s) s
          (complete .ok
            (setVerdict (judge (strengthOf (gfOrder (operandA s))) (operandT s))
              (setStrength (strengthOf (gfOrder (operandA s)))
                (setOrder (gfOrder (operandA s)) s)))))))

end Sys2Proof.Machine
end

