-- ==== Sys2Proof/Machine/Dispatch.lean ====
section
/-! DEFINITION. The dispatch of a decoded command to its meaning (70_reset_and_hazards.md R211). -/

namespace Sys2Proof.Machine

def exec (i : Instr) (s : State) : Host.Outcome State Fault Refusal :=
  match i with
  | .nop => Sys2Proof.Machine.execNop s
  | .gfmul => Sys2Proof.Machine.execGfmul s
  | .gfsqr => Sys2Proof.Machine.execGfsqr s
  | .gfexp => Sys2Proof.Machine.execGfexp s
  | .gford => Sys2Proof.Machine.execGford s
  | .gfstr => Sys2Proof.Machine.execGfstr s
  | .gfjdg => Sys2Proof.Machine.execGfjdg s
  | .selftest => Sys2Proof.Machine.execSelftest s

end Sys2Proof.Machine
end

