-- ==== Sys2Proof/Machine/Engine.lean ====
section
/-! DEFINITION. What each event does to the block: the engine's completion step (70_reset_and_hazards.md
R211), a host access (20_memory.md R50) and the reset input (R200). -/

namespace Sys2Proof.Machine

/-- EngineStep (R211): decodes the word in CMD and runs the command's rule to its completion. -/
def engineStep (s : State) : Host.Outcome State Fault Refusal :=
  match decode (fetchWord s) with
  | .command i => exec i s
  | .illegal _ => .next (completeIllegal s)

/-- A turn of the engine: its step is enabled iff BUSY = 1, and otherwise nothing happens (R15, R211). -/
def engineTurn (s : State) : Host.Outcome State Fault Refusal :=
  if s.busy then engineStep s else .next s

/-- One event of the total order (R62). -/
def performEvent (ev : Event) (s : State) : Host.Outcome State Fault Refusal :=
  match ev with
  | .host acc => .next (hostAccess acc s)
  | .engine => engineTurn s
  | .resetAssert => .next (assertReset s)
  | .resetRelease => .next (releaseReset s)

end Sys2Proof.Machine
end

