-- ==== Sys2Proof/Machine/Step.lean ====
section
/-! DEFINITION. The step of the block: the next event of the schedule, or, where none is left, the engine's
own turn (70_reset_and_hazards.md R212: a pending command completes), and the placing of a command. -/

namespace Sys2Proof.Machine

/-- One step (R62, R212): the next event in order; with no event left the engine takes its turn, and an idle
block waits (R201). -/
def step (s : State) : Host.Outcome State Fault Refusal :=
  match s.inputs with
  | [] => engineTurn s
  | ev :: rest => performEvent ev { s with inputs := rest }

/-- The state whose very next step runs the command of the low `nbits` bits of `w`: the word stands in CMD,
BUSY is 1 and no event comes before the engine's turn (assumption 7). -/
def State.withFetchWord (s : State) (nbits w : Nat) : State :=
  placeCommand (BitVec.ofNat 32 (w % 2 ^ nbits)) s

end Sys2Proof.Machine
end

