-- ==== Sys2Proof/Machine/HostProgram.lean ====
section
/-! DEFINITION. The host side of the spec as bus accesses: command mnemonics (30_encoding.md R76), the host
statements and pseudo-statements (R77), the byte reading of an element (00_scope.md R18) and the host-level
entry points (R78). No step of the block runs these: they say which accesses a host sends (assumptions
13, 17 and 18). -/

namespace Sys2Proof.Machine

/-- The mnemonic of each command (R76). -/
def mnemonicOf : Instr → String
  | .nop => "NOP"
  | .gfmul => "GFMUL"
  | .gfsqr => "GFSQR"
  | .gfexp => "GFEXP"
  | .gford => "GFORD"
  | .gfstr => "GFSTR"
  | .gfjdg => "GFJDG"
  | .selftest => "SELFTEST"

/-- The eight commands in the order of R72. -/
def allCommands : List Instr := [.nop, .gfmul, .gfsqr, .gfexp, .gford, .gfstr, .gfjdg, .selftest]

/-- The command a mnemonic names; case is not significant (R76). -/
def commandNamed (name : List Char) : Option Instr :=
  allCommands.find? fun i => decide (name.map Char.toUpper = (mnemonicOf i).toList)

/-- enc(M): the word of a mnemonic (R76). -/
def assemble (name : List Char) : Option Word := (commandNamed name).map encode

/-- `ld128 X, V128` (R77). -/
def ld128 (x : Reg128) (v : Elem) : List HostStmt :=
  [.wr (offsetOf (.data x 0)) (getWord v 0), .wr (offsetOf (.data x 1)) (getWord v 1),
   .wr (offsetOf (.data x 2)) (getWord v 2), .wr (offsetOf (.data x 3)) (getWord v 3)]

/-- The four reads of `rd128 X -> t`, into the host variables t, t + 1, t + 2 and t + 3 (R77). -/
def rd128 (x : Reg128) (t : Nat) : List HostStmt :=
  [.rd (offsetOf (.data x 0)) t, .rd (offsetOf (.data x 1)) (t + 1),
   .rd (offsetOf (.data x 2)) (t + 2), .rd (offsetOf (.data x 3)) (t + 3)]

/-- The value `rd128` makes of its four words: t0·2^96 + t1·2^64 + t2·2^32 + t3 (R77). -/
def joinWords (t0 t1 t2 t3 : Word) : Elem := t0 ++ t1 ++ t2 ++ t3

/-- `issue M` (R77). -/
def issueStmt (i : Instr) : List HostStmt := [.wr (offsetOf .cmd) (encode i)]

/-- `wait`: polls STATUS into the host variable s until bit 0 is 0; w is its label (R77). -/
def waitStmt (s w : Nat) : List HostStmt := [.label w, .rd (offsetOf .status) s, .ifGoto s 0 true w]

/-- `ack`: clears DONE (R77). -/
def ackStmt : List HostStmt := [.wr (offsetOf .status) 0x00000002]

/-- `clrwerr`: clears WERR (R77). -/
def clrwerrStmt : List HostStmt := [.wr (offsetOf .status) 0x00000020]

/-- The bus access of one statement; labels and jumps make none (R77). -/
def stmtAccess : HostStmt → Option Access
  | .wr off v => some ⟨.bits32, off, .write v⟩
  | .rd off _ => some ⟨.bits32, off, .read⟩
  | .label _ => none
  | .ifGoto _ _ _ _ => none

/-- The encoding of a host program passed through once: its bus accesses in order (R77). -/
def hostAccesses (p : List HostStmt) : List Access := p.filterMap stmtAccess

/-- The same accesses as events of the block. -/
def hostEvents (p : List HostStmt) : List Event := (hostAccesses p).map Event.host

/-- The big-endian integer of a byte string (R18). -/
def bigEndian (bytes : List Byte) : Nat := bytes.foldl (fun n x => 256 * n + x.toNat) 0

/-- The element of a 16-byte string; none for another length (R18, R78). -/
def elemOfBytes (bytes : List Byte) : Option Elem :=
  if bytes.length = 16 then some (BitVec.ofNat 128 (bigEndian bytes)) else none

/-- The 16 bytes of an element, byte 0 the highest (R18). -/
def bytesOfElem (x : Elem) : List Byte := (List.range 16).map fun k => x.extractLsb' (120 - 8 * k) 8

/-- evaluate_hashkey_strength(h) (R78): STATUS is left in host variable 0 and STRENGTH in 1. DESIGN CHOICE
(assumption 18): "read STATUS.ERRCODE" is a bus read of its own after `wait`, where R78 also admits taking the
code from the last poll of `wait`, one STATUS read fewer (as the encoding of P2 in 95_test_vectors.md lists). -/
def evaluateHashkeyStrength (h : List Byte) : Except InvalidArgument (List HostStmt) :=
  match elemOfBytes h with
  | none => .error .hashKeyLength
  | some x => .ok (ld128 .a x ++ issueStmt .gfstr ++ waitStmt 0 0 ++
      [.rd (offsetOf .status) 0, .rd (offsetOf .strength) 1])

/-- is_hashkey_safe(h, t) (R78): STATUS is left in host variable 0 and VERDICT in 1. DESIGN CHOICE (assumption
17), unsafe: t is the 8 bits THRESH.T holds (R30), so a host threshold above 255 has no form here. R182 maps every
threshold outside 1 to 128 to ERR_THRESH, and the spec does not say what a host does with one that THRESH.T cannot
hold; 0 and 129 to 255 reach the block and complete with ERR_THRESH (R140). DESIGN CHOICE (assumption 18): the
write of THRESH stands after `ld128 A` and just before the issue, where R78 says only "before the issue"; and the
read of STATUS after `wait` is a bus read of its own, as in `evaluateHashkeyStrength`. -/
def isHashkeySafe (h : List Byte) (t : BitVec 8) : Except InvalidArgument (List HostStmt) :=
  match elemOfBytes h with
  | none => .error .hashKeyLength
  | some x => .ok (ld128 .a x ++ [.wr (offsetOf .thresh) (t.setWidth 32)] ++ issueStmt .gfjdg ++
      waitStmt 0 0 ++ [.rd (offsetOf .status) 0, .rd (offsetOf .verdict) 1])

/-- The key length check of the host (R78, R182). -/
def keyLengthOk (key : List Byte) : Bool := key.length == 16 || key.length == 32

/-- evaluate_key_strength(key), over the host's AES collaborator `aes`, which answers H for a key (R78). Its
accesses are those of `evaluateHashkeyStrength` (assumption 18). -/
def evaluateKeyStrength (aes : List Byte → List Byte) (key : List Byte) :
    Except InvalidArgument (List HostStmt) :=
  if keyLengthOk key then evaluateHashkeyStrength (aes key) else .error .keyLength

/-- is_key_safe(key, t) (R78, R144). DESIGN CHOICE (assumption 17), unsafe: as in `isHashkeySafe`, a host
threshold above 255 has no form here; its accesses are those of `isHashkeySafe` (assumption 18). -/
def isKeySafe (aes : List Byte → List Byte) (key : List Byte) (t : BitVec 8 := 126) :
    Except InvalidArgument (List HostStmt) :=
  if keyLengthOk key then isHashkeySafe (aes key) t else .error .keyLength

end Sys2Proof.Machine
end

