-- ==== Sys2Proof/Safety.lean ====
section
/-! DEFINITION. The terms the statements use: the polynomial a field element stands for (00_scope.md R10),
the registers at their reset values, and the invariant every step keeps. -/

namespace Sys2Proof.Safety

open Sys2Proof.Machine

/-- poly(v): bit 127 − i of v is the coefficient of x^i over GF(2) (R10). -/
noncomputable def poly (v : Elem) : Polynomial (ZMod 2) :=
  ∑ i ∈ Finset.range 128, if v.getLsbD (127 - i) then Polynomial.X ^ i else 0

/-- The reduction polynomial x^128 + x^7 + x^2 + x + 1 (R1, R101). -/
noncomputable def reductionPoly : Polynomial (ZMod 2) :=
  Polynomial.X ^ 128 + Polynomial.X ^ 7 + Polynomial.X ^ 2 + Polynomial.X + 1

/-- Every register of R42 holds its reset value (R200); the model's own fields are left open. -/
def registersAtReset (s : State) : Prop :=
  s = { State.reset with inReset := s.inReset, inputs := s.inputs, responses := s.responses }

/-- The invariant of the block: what the spec says of its registers in every state a run reaches. -/
structure BlockInv (s : State) : Prop where
  /-- STP and STF are never both 1 (R23, R154). -/
  oneSelftestBit : ¬(s.stp = true ∧ s.stf = true)
  /-- Only the codes 0 to 5 are ever written to ERRCODE (R180, I12). -/
  errcodeLegal : s.errcode.toNat ≤ 5
  /-- While a command is pending, DONE and ERRCODE read 0 (R213). -/
  pendingClean : s.busy = true → s.done = false ∧ s.errcode = 0
  /-- ORD is 0, or a group order: it divides 2^128 − 1 (R29). -/
  ordIsGroupOrder : s.ord = 0 ∨ s.ord.toNat ∣ 2 ^ 128 - 1
  /-- STRENGTH.S is 0 to 127 (R31). -/
  strengthBound : s.strength.toNat ≤ 127
  /-- An order is held only where a self-test has been passed or has failed since reset (R151, R122). -/
  ordNeedsSelftest : s.ord ≠ 0 → s.stp = true ∨ s.stf = true
  /-- A strength or a SAFE verdict is held only beside an order (R34). -/
  resultsNeedOrder : s.strength ≠ 0 ∨ s.safe = true → s.ord ≠ 0
  /-- While `rst_n` is asserted every register is at its reset value (R200). -/
  heldInReset : s.inReset = true → registersAtReset s

/-- No register of R42 differs: two states agree but for the model's own fields. -/
def sameRegisters (s t : State) : Prop :=
  t = { s with inReset := t.inReset, inputs := t.inputs, responses := t.responses }

/-- It is the engine's turn: no event is left, or the next event is a turn of the engine (R212); `rest` is
what is left after it. -/
def EngineIsNext (s : State) (rest : List Event) : Prop :=
  (s.inputs = [] ∧ rest = []) ∨ s.inputs = .engine :: rest

/-- The next event is this host access and `rst_n` is not asserted; `rest` is what is left after it. -/
def HostIsNext (s : State) (acc : Access) (rest : List Event) : Prop :=
  s.inReset = false ∧ s.inputs = .host acc :: rest

/-- A legal 32-bit write at an offset. -/
def write32 (off : Offset) (v : Word) : Access := ⟨.bits32, off, .write v⟩

/-- A legal 32-bit read at an offset. -/
def read32 (off : Offset) : Access := ⟨.bits32, off, .read⟩

/-- The state with an access answered: the event is gone and the response recorded. -/
def answered (resp : BusResponse) (rest : List Event) (s : State) : State :=
  { s with inputs := rest, responses := s.responses ++ [resp] }

/-- The state with the running command ended with a code, and nothing else changed (R181). -/
def ended (code : BitVec 4) (s : State) : State :=
  { s with errcode := code, done := true, busy := false }

/-- A self-test has passed and none has failed: the gate of R122 is open. -/
def verified (s : State) : Prop := s.stf = false ∧ s.stp = true

/-- The registers that hold results (R213): R, ORD, STRENGTH, VERDICT, STP and STF are the same. -/
def sameResults (s t : State) : Prop :=
  t.r = s.r ∧ t.ord = s.ord ∧ t.strength = s.strength ∧ t.safe = s.safe ∧ t.stp = s.stp ∧ t.stf = s.stf

/-- The registers a host may write while idle (R214): A, B, E, THRESH and CMD are the same. -/
def sameOperands (s t : State) : Prop :=
  t.a = s.a ∧ t.b = s.b ∧ t.e = s.e ∧ t.thresh = s.thresh ∧ t.cmd = s.cmd

/-- An idle block, out of reset, whose next events are the issue of the word w and then some host accesses. -/
def IssuedThen (s : State) (w : Word) (accs : List Access) (rest : List Event) : Prop :=
  s.inReset = false ∧ s.busy = false ∧ s.inputs = .host (write32 0x0C w) :: (accs.map Event.host ++ rest)

/-- The value a read of each mapped offset returns, written out from the table of R54. -/
def busReadTable (s : State) : List (Offset × Word) :=
  [(0x00, 0x47463132),
   (0x04, 0#31 ++ BitVec.ofBool s.ctrlIe),
   (0x08, 0#20 ++ s.errcode ++ 0#2 ++ BitVec.ofBool s.werr ++ BitVec.ofBool s.stf ++ BitVec.ofBool s.stp
      ++ BitVec.ofBool (decide (s.errcode ≠ 0)) ++ BitVec.ofBool s.done ++ BitVec.ofBool s.busy),
   (0x0C, s.cmd),
   (0x10, 0#24 ++ s.thresh),
   (0x14, 0#24 ++ s.strength),
   (0x18, 0#31 ++ BitVec.ofBool s.safe),
   (0x20, s.a.extractLsb' 96 32), (0x24, s.a.extractLsb' 64 32),
   (0x28, s.a.extractLsb' 32 32), (0x2C, s.a.extractLsb' 0 32),
   (0x30, s.b.extractLsb' 96 32), (0x34, s.b.extractLsb' 64 32),
   (0x38, s.b.extractLsb' 32 32), (0x3C, s.b.extractLsb' 0 32),
   (0x40, s.e.extractLsb' 96 32), (0x44, s.e.extractLsb' 64 32),
   (0x48, s.e.extractLsb' 32 32), (0x4C, s.e.extractLsb' 0 32),
   (0x50, s.r.extractLsb' 96 32), (0x54, s.r.extractLsb' 64 32),
   (0x58, s.r.extractLsb' 32 32), (0x5C, s.r.extractLsb' 0 32),
   (0x60, s.ord.extractLsb' 96 32), (0x64, s.ord.extractLsb' 64 32),
   (0x68, s.ord.extractLsb' 32 32), (0x6C, s.ord.extractLsb' 0 32)]

/-- The four values of a 128-bit register with one of its words replaced, word 0 first (R24). -/
def withWord0 (x : Elem) (v : Word) : Elem := v ++ x.extractLsb' 0 96
def withWord1 (x : Elem) (v : Word) : Elem := x.extractLsb' 96 32 ++ v ++ x.extractLsb' 0 64
def withWord2 (x : Elem) (v : Word) : Elem := x.extractLsb' 64 64 ++ v ++ x.extractLsb' 0 32
def withWord3 (x : Elem) (v : Word) : Elem := x.extractLsb' 32 96 ++ v

/-- What a write of v does at the offsets that are taken only while idle, for an idle block (R55). -/
def idleWriteTable (s : State) (v : Word) : List (Offset × State) :=
  [(0x0C, { s with cmd := v, busy := true, done := false, errcode := 0 }),
   (0x10, { s with thresh := v.extractLsb' 0 8 }),
   (0x20, { s with a := withWord0 s.a v }), (0x24, { s with a := withWord1 s.a v }),
   (0x28, { s with a := withWord2 s.a v }), (0x2C, { s with a := withWord3 s.a v }),
   (0x30, { s with b := withWord0 s.b v }), (0x34, { s with b := withWord1 s.b v }),
   (0x38, { s with b := withWord2 s.b v }), (0x3C, { s with b := withWord3 s.b v }),
   (0x40, { s with e := withWord0 s.e v }), (0x44, { s with e := withWord1 s.e v }),
   (0x48, { s with e := withWord2 s.e v }), (0x4C, { s with e := withWord3 s.e v })]

/-- What a write of v does at CTRL and STATUS, idle or busy (R55). -/
def anyTimeWriteTable (s : State) (v : Word) : List (Offset × State) :=
  [(0x04, { s with ctrlIe := v.getLsbD 0 }),
   (0x08, { s with done := if v.getLsbD 1 then false else s.done,
                   werr := if v.getLsbD 5 then false else s.werr })]

/-- The offsets of the read-only registers: ID, STRENGTH, VERDICT, R and ORD (R20, R55). -/
def readOnlyOffsets : List Offset :=
  [0x00, 0x14, 0x18, 0x50, 0x54, 0x58, 0x5C, 0x60, 0x64, 0x68, 0x6C]

/-- The offsets taken only while idle: CMD, THRESH, A, B and E (R55, R214). -/
def idleOnlyOffsets : List Offset :=
  [0x0C, 0x10, 0x20, 0x24, 0x28, 0x2C, 0x30, 0x34, 0x38, 0x3C, 0x40, 0x44, 0x48, 0x4C]

/-- The unmapped aligned offsets of R53: 0x1C, and 0x70 to 0xFC. -/
def UnmappedOffset (off : Offset) : Prop :=
  off.toNat % 4 = 0 ∧ (off.toNat = 0x1C ∨ 0x70 ≤ off.toNat)

end Sys2Proof.Safety
end

