-- ==== Sys2Proof/Certificates/Slice0/Obligations.lean ====
section
/-! DEFINITION. The statements for the provers, from the numbered rules of spec/. -/

open Sys2Proof Sys2Proof.Machine Sys2Proof.Safety

/-! ### Encoding (30_encoding.md) -/

/-- Tier 3, decode and encode agree: a word decodes to a command exactly where it is that command's word. No
word outside the eight decodes to a command (section 2 of 30_encoding.md). -/
def Obligations.DecodeAgreesWithEncode : Prop :=
  ∀ (w : Word) (i : Instr), i.wellFormed = true → (decode w = .command i ↔ w = encode i)

/-- R73: decode as the rule writes it, total on all words; and the engine decodes the word held in CMD. -/
def Obligations.DecodeFollowsTheOpcodeMap : Prop :=
  (∀ w : Word,
    (w.toNat = 0 → decode w = .command .nop) ∧ (w.toNat = 1 → decode w = .command .gfmul) ∧
    (w.toNat = 2 → decode w = .command .gfsqr) ∧ (w.toNat = 3 → decode w = .command .gfexp) ∧
    (w.toNat = 4 → decode w = .command .gford) ∧ (w.toNat = 5 → decode w = .command .gfstr) ∧
    (w.toNat = 6 → decode w = .command .gfjdg) ∧ (w.toNat = 7 → decode w = .command .selftest) ∧
    (7 < w.toNat → ∃ why, decode w = .illegal why)) ∧
  (∀ (s : State) (rest : List Event), EngineIsNext s rest → s.busy = true →
    (∀ i, decode s.cmd = .command i → step s = exec i { s with inputs := rest }) ∧
    (∀ why, decode s.cmd = .illegal why → step s = .next (ended 1 { s with inputs := rest })))

/-- The words of R72 written out, and three words of the illegal groups of R74. -/
def Obligations.WrittenOutWordsDecode : Prop :=
  decode 0b00000000000000000000000000000000#32 = .command .nop ∧
  decode 0b00000000000000000000000000000001#32 = .command .gfmul ∧
  decode 0b00000000000000000000000000000011#32 = .command .gfexp ∧
  decode 0b00000000000000000000000000000110#32 = .command .gfjdg ∧
  decode 0b00000000000000000000000000000111#32 = .command .selftest ∧
  decode 0b00000000000000000000000000001000#32 = .illegal (.reservedOpcode 8) ∧
  decode 0b00000000000000000000000000010000#32 = .illegal (.reservedBits 1) ∧
  decode 0b10000000000000000000000000000001#32 = .illegal (.reservedBits 0x8000000)

/-- R74: an ILLEGAL word, of either group, is accepted at issue like any other, and completes with
ERR_ILLEGAL; nothing else changes. -/
def Obligations.IllegalWordsIssueAndCompleteWithErrIllegal : Prop :=
  ∀ w : Word, (w.extractLsb' 4 28 ≠ 0 ∨ 8 ≤ (w.extractLsb' 0 4).toNat) →
    (∀ (s : State) (rest : List Event), HostIsNext s (write32 0x0C w) rest → s.busy = false →
      step s = .next (answered .ok rest { s with cmd := w, busy := true, done := false, errcode := 0 })) ∧
    (∀ (s : State) (rest : List Event), EngineIsNext s rest → s.busy = true → s.cmd = w →
      step s = .next { s with errcode := 1, done := true, busy := false, inputs := rest })

/-- Section 4 of 30_encoding.md: a mnemonic, in capitals or in small letters, is the word of R72. -/
def Obligations.MnemonicsAssembleInEitherCase : Prop :=
  ∀ i : Instr, assemble (mnemonicOf i).toList = some (encode i) ∧
    assemble ((mnemonicOf i).toList.map Char.toLower) = some (encode i)

/-! ### The step (70_reset_and_hazards.md) -/

/-- A step runs the decoded command: on the engine's turn of a busy block whose CMD decodes to a well-formed
command, the step is that command's meaning at the state less the engine's event. -/
def Obligations.StepRunsTheDecodedCommand : Prop :=
  ∀ (s : State) (rest : List Event) (i : Instr), EngineIsNext s rest → s.busy = true →
    decode s.cmd = .command i → i.wellFormed = true → step s = exec i { s with inputs := rest }

/-- The same through the model's placing of a command word (assumption 7). -/
def Obligations.PlacedWordRunsInTheNextStep : Prop :=
  ∀ (s : State) (w : Nat) (i : Instr), decodeTableWord 32 w = some i →
    step (s.withFetchWord 32 w) = exec i (s.withFetchWord 32 w) ∧
    (s.withFetchWord 32 w).cmd = BitVec.ofNat 32 w ∧ (s.withFetchWord 32 w).busy = true

/-- No event ever stops the block with a fault or a refusal (section 4 of 60_exceptions.md). -/
def Obligations.EveryStepAnswersANextState : Prop :=
  ∀ s : State, ∃ t : State, step s = .next t

/-- Every engine step of a busy block ends its command: BUSY falls, DONE rises, and the host's registers,
the recorded responses and the reset input are as before (section 3 of 70_reset_and_hazards.md). -/
def Obligations.EveryEngineStepEndsItsCommand : Prop :=
  ∀ (s : State) (rest : List Event), EngineIsNext s rest → s.busy = true →
    ∃ t : State, step s = .next t ∧ t.busy = false ∧ t.done = true ∧ t.errcode.toNat ≤ 5 ∧
      t.a = s.a ∧ t.b = s.b ∧ t.e = s.e ∧ t.thresh = s.thresh ∧ t.ctrlIe = s.ctrlIe ∧ t.werr = s.werr ∧
      t.cmd = s.cmd ∧ t.inReset = s.inReset ∧ t.inputs = rest ∧ t.responses = s.responses

/-- The model's schedule (assumption 1): a finite schedule leaves no command pending. Once its events have
happened and the engine has had one more turn, the block is idle. -/
def Obligations.FiniteSchedulesEndIdle : Prop :=
  ∀ s : State, ∃ t : State, Host.Core.run Sys2Proof.core (s.inputs.length + 1) s = .next t ∧
    t.busy = false ∧ t.inputs = []

/-- R210: a write to CMD while BUSY = 0 is the issue, in one step, of any word, whatever ERRCODE is; nothing
else changes, so `irq` is 0. -/
def Obligations.WritingCmdWhileIdleIssues : Prop :=
  ∀ (s : State) (v : Word) (rest : List Event), HostIsNext s (write32 0x0C v) rest → s.busy = false →
    step s = .next (answered .ok rest { s with cmd := v, busy := true, done := false, errcode := 0 }) ∧
    irq (answered .ok rest { s with cmd := v, busy := true, done := false, errcode := 0 }) = false

/-- R213: between an issue and its completion, whatever the host accesses, the result registers keep their
pre-issue values, reads of them return those values, and ERRCODE and DONE read 0. -/
def Obligations.ResultsAreStableWhileBusy : Prop :=
  ∀ (s : State) (w : Word) (accs : List Access) (rest : List Event), IssuedThen s w accs rest →
    ∃ t : State, Host.Core.run Sys2Proof.core (accs.length + 1) s = .next t ∧ t.inputs = rest ∧
      t.busy = true ∧ sameResults s t ∧ t.errcode = 0 ∧ t.done = false ∧
      readReg .strength t = readReg .strength s ∧ readReg .verdict t = readReg .verdict s ∧
      (∀ j, readReg (.data .r j) t = readReg (.data .r j) s) ∧
      (∀ j, readReg (.data .ord j) t = readReg (.data .ord j) s) ∧
      (readReg .status t).extractLsb' 8 4 = 0 ∧ (readReg .status t).getLsbD 1 = false ∧
      (readReg .status t).getLsbD 3 = s.stp ∧ (readReg .status t).getLsbD 4 = s.stf

/-- R64: the engine executes exactly the word that was issued, on the operands as they stood at the issue,
whatever the host accesses in between. -/
def Obligations.EngineExecutesTheIssuedWord : Prop :=
  ∀ (s : State) (w : Word) (accs : List Access) (rest : List Event),
    IssuedThen s w accs (.engine :: rest) →
    ∃ t : State, t.cmd = w ∧ t.a = s.a ∧ t.b = s.b ∧ t.e = s.e ∧ t.thresh = s.thresh ∧ t.stp = s.stp ∧
      t.stf = s.stf ∧ t.busy = true ∧ t.inputs = rest ∧
      (∀ i, decode w = .command i →
        Host.Core.run Sys2Proof.core (accs.length + 2) s = exec i t) ∧
      (∀ why, decode w = .illegal why →
        Host.Core.run Sys2Proof.core (accs.length + 2) s = .next (ended 1 t))

/-- R214: writes while busy. Operand, THRESH and CMD writes are dropped and set WERR, without a bus error;
CTRL and STATUS writes take effect; read-only writes are ignored; and WERR stays until the host clears it
or reset. -/
def Obligations.WritesWhileBusyAreDroppedWithWerr : Prop :=
  (∀ (s : State) (off : Offset) (v : Word) (rest : List Event), HostIsNext s (write32 off v) rest →
    s.busy = true →
    (off ∈ idleOnlyOffsets → step s = .next (answered .ok rest { s with werr := true })) ∧
    (∀ t, (off, t) ∈ anyTimeWriteTable s v → step s = .next (answered .ok rest t)) ∧
    (off ∈ readOnlyOffsets → step s = .next (answered .ok rest s))) ∧
  (∀ s t : State, step s = .next t → s.werr = true → t.werr = false →
    (∃ rest, s.inputs = .resetAssert :: rest) ∨
    (∃ v rest, s.inputs = .host (write32 0x08 v) :: rest ∧ v.getLsbD 5 = true))

/-- R187: the block's events form one total order. A host access and a completion that arrive together may
take effect in either order; a write that clears DONE, ordered before a completion, leaves DONE at 1, and
ordered after it leaves DONE at 0; reset is ordered first and discards a pending command. -/
def Obligations.SimultaneousEventsTakeOneOrder : Prop :=
  (∀ acc : Access, ordersTogether (.host acc) .engine = [[.host acc, .engine], [.engine, .host acc]]) ∧
  (∀ ev : Event, ev ≠ .resetAssert → ordersTogether .resetAssert ev = [[.resetAssert, ev]] ∧
    ordersTogether ev .resetAssert = [[.resetAssert, ev]]) ∧
  (∀ (s : State) (v : Word) (rest : List Event), s.inReset = false → s.busy = true → v.getLsbD 1 = true →
    (s.inputs = .host (write32 0x08 v) :: .engine :: rest →
      ∃ t, Host.Core.run Sys2Proof.core 2 s = .next t ∧ t.done = true ∧ t.busy = false) ∧
    (s.inputs = .engine :: .host (write32 0x08 v) :: rest →
      ∃ t, Host.Core.run Sys2Proof.core 2 s = .next t ∧ t.done = false ∧ t.busy = false)) ∧
  (∀ (s : State) (rest : List Event), s.inputs = .resetAssert :: .engine :: rest →
    ∃ t, Host.Core.run Sys2Proof.core 2 s = .next t ∧ registersAtReset t ∧ t.done = false)

/-! ### Reset (70_reset_and_hazards.md section 1) -/

/-- Asserting reset, in any state, puts every register at its reset value, discards a pending command and
drops `irq`; ID is unchanged; releasing reset changes no register. -/
def Obligations.ResetPutsEveryRegisterAtItsResetValue : Prop :=
  ∀ (s : State) (rest : List Event),
    (s.inputs = .resetAssert :: rest →
      ∃ t : State, step s = .next t ∧ t.inReset = true ∧ t.inputs = rest ∧ t.responses = s.responses ∧
        t.busy = false ∧ t.done = false ∧ t.stp = false ∧ t.stf = false ∧ t.werr = false ∧ t.errcode = 0 ∧
        t.ctrlIe = false ∧ t.cmd = 0 ∧ t.thresh = 126 ∧ t.strength = 0 ∧ t.safe = false ∧ t.a = 0 ∧ t.b = 0 ∧
        t.e = 0 ∧ t.r = 0 ∧ t.ord = 0 ∧ irq t = false ∧ errFlag t = false) ∧
    (s.inputs = .resetRelease :: rest → step s = .next { s with inReset := false, inputs := rest })

/-- An access while `rst_n` is asserted, of any kind, changes no register; its response is free
(assumption 4). -/
def Obligations.AccessDuringResetHasNoEffect : Prop :=
  ∀ (s : State) (acc : Access) (rest : List Event), s.inReset = true → s.inputs = .host acc :: rest →
    ∃ resp : BusResponse, step s = .next (answered resp rest s)

/-- R202: reset does not issue a command and does not run the self-test: however many turns the engine then
has, the block stays at its reset values, with the NOP word in CMD not executed. -/
def Obligations.ResetIssuesNothing : Prop :=
  ∀ (s : State) (n : Nat),
    s.inputs = .resetAssert :: .resetRelease :: List.replicate n .engine →
    Host.Core.run Sys2Proof.core (n + 2) s = .next { State.reset with responses := s.responses } ∧
    decode State.reset.cmd = .command .nop ∧ State.reset.done = false ∧ State.reset.stp = false

/-- The words the host reads right after reset: 0 everywhere but ID and THRESH (section 1 of 10_state.md), and
the offsets and names of the map correspond one to one. -/
def Obligations.ResetRegistersReadAsListed : Prop :=
  (∀ w : RegWord, readReg w State.reset =
    if w = .id then 0x47463132 else if w = .thresh then 0x7E else 0) ∧
  (∀ (off : Offset) (w : RegWord), regAt off = some w ↔ offsetOf w = off)

/-! ### The invariant -/

/-- The invariant holds right after reset. -/
def Obligations.ResetMeetsTheInvariant : Prop := BlockInv State.reset

/-- Tier 3: every step, from every state that meets the invariant, leads to a state that meets it. -/
def Obligations.StepKeepsTheInvariant : Prop :=
  ∀ s t : State, BlockInv s → step s = .next t → BlockInv t

/-! ### The register bus (20_memory.md, 10_state.md) -/

/-- R52: an access that is not 32 bits wide, or not aligned to 4, answers BusError and changes no register. -/
def Obligations.IllegalWidthOrAlignmentIsABusError : Prop :=
  ∀ (s : State) (acc : Access) (rest : List Event), HostIsNext s acc rest →
    (acc.width = .bits8 ∨ acc.width = .bits16 ∨ acc.width = .wider ∨ acc.off.toNat % 4 ≠ 0) →
    step s = .next (answered (.busError acc.off) rest s)

/-- R53: a read or write of an unmapped offset, 0x1C or 0x70 to 0xFC, answers BusError and changes no
register. -/
def Obligations.UnmappedOffsetIsABusError : Prop :=
  ∀ (s : State) (off : Offset) (v : Word) (rest : List Event), UnmappedOffset off →
    (HostIsNext s (read32 off) rest → step s = .next (answered (.busError off) rest s)) ∧
    (HostIsNext s (write32 off v) rest → step s = .next (answered (.busError off) rest s))

/-- R54: a legal read returns the value of the rule's table, idle or busy, and changes no register; every
other offset answers BusError. -/
def Obligations.ReadsReturnTheRegisterTable : Prop :=
  ∀ (s : State) (off : Offset) (rest : List Event), HostIsNext s (read32 off) rest →
    (∀ v, (off, v) ∈ busReadTable s → step s = .next (answered (.data v) rest s)) ∧
    ((∀ v, (off, v) ∉ busReadTable s) → step s = .next (answered (.busError off) rest s))

/-- R55: a legal write changes state only as the rule's table says. -/
def Obligations.WritesFollowTheRegisterTable : Prop :=
  ∀ (s : State) (off : Offset) (v : Word) (rest : List Event), HostIsNext s (write32 off v) rest →
    (∀ t, (off, t) ∈ anyTimeWriteTable s v → step s = .next (answered .ok rest t)) ∧
    (∀ t, (off, t) ∈ idleWriteTable s v →
      step s = .next (answered .ok rest (if s.busy then { s with werr := true } else t))) ∧
    (off ∈ readOnlyOffsets → step s = .next (answered .ok rest s)) ∧
    (off ∉ readOnlyOffsets → off ∉ idleOnlyOffsets → off ∉ [0x04, 0x08] →
      step s = .next (answered (.busError off) rest s))

/-- R24: word Xj of a 128-bit register is bits 127 − 32j to 96 − 32j, word 0 the most significant; the words of
a 16-byte string are its bytes four at a time; a write to Xj changes only those 32 bits. -/
def Obligations.WordLayoutOfTheDataRegisters : Prop :=
  (∀ (x : Reg128) (j : Fin 4), (offsetOf (.data x j)).toNat = (offsetOf (.data x 0)).toNat + 4 * j.val) ∧
  (∀ (x : Reg128) (s : State), readReg (.data x 0) s ++ readReg (.data x 1) s ++ readReg (.data x 2) s
      ++ readReg (.data x 3) s = readReg128 x s) ∧
  (∀ (b : List Byte) (x : Elem) (j : Fin 4), elemOfBytes b = some x →
    getWord x j = b.getD (4 * j.val) 0 ++ b.getD (4 * j.val + 1) 0 ++ b.getD (4 * j.val + 2) 0
      ++ b.getD (4 * j.val + 3) 0) ∧
  (∀ (x : Elem) (j : Fin 4) (v : Word) (i : Nat), i < 128 →
    (setWord x j v).getLsbD i =
      if 96 - 32 * j.val ≤ i ∧ i < 128 - 32 * j.val then v.getLsbD (i - (96 - 32 * j.val))
      else x.getLsbD i) ∧
  (∀ (s : State) (x : Reg128) (j : Fin 4) (v : Word) (rest : List Event),
    HostIsNext s (write32 (offsetOf (.data x j)) v) rest → s.busy = false →
    x = .a ∨ x = .b ∨ x = .e →
    ∃ t, step s = .next t ∧ readReg128 x t = setWord (readReg128 x s) j v ∧
      ∀ y, y ≠ x → readReg128 y t = readReg128 y s)

/-- R21: ID, at offset 0x00, reads 0x47463132, "GF12" with 0x47 in bits 31 to 24, in every state, so across
reset too, and a write leaves the state as it is. -/
def Obligations.IdIsConstant : Prop :=
  regAt 0x00 = some .id ∧ (∀ (s : State) (v : Word), writeReg .id v s = s) ∧
  (∀ s : State, readReg .id s = 0x47463132) ∧
  (∀ s : State, (readReg .id s).extractLsb' 24 8 = 0x47#8)

/-- R35: the level output `irq` is CTRL.IE AND STATUS.DONE, as the host reads the two bits. -/
def Obligations.IrqIsEnableAndDone : Prop :=
  ∀ s : State, irq s = ((readReg .ctrl s).getLsbD 0 && (readReg .status s).getLsbD 1)

/-- Section 2 of 60_exceptions.md: every completion, OK or error, sets the pending bit; only a write of 1 to
STATUS bit 1, an issue or reset clears it; a write to CTRL.IE changes `irq` in the same step. -/
def Obligations.InterruptIsSetAndClearedAsStated : Prop :=
  (∀ (s : State) (rest : List Event), EngineIsNext s rest → s.busy = true →
    ∃ t, step s = .next t ∧ t.done = true ∧ irq t = s.ctrlIe) ∧
  (∀ s t : State, step s = .next t → s.done = true → t.done = false →
    (∃ v rest, s.inputs = .host (write32 0x08 v) :: rest ∧ v.getLsbD 1 = true) ∨
    (∃ v rest, s.inputs = .host (write32 0x0C v) :: rest ∧ s.busy = false) ∨
    (∃ rest, s.inputs = .resetAssert :: rest)) ∧
  (∀ (s : State) (v : Word) (rest : List Event), HostIsNext s (write32 0x04 v) rest →
    ∃ t, step s = .next t ∧ irq t = (v.getLsbD 0 && s.done))

/-- R59: reads have no side effect; writes to A, B, E, THRESH and CTRL are idempotent; repeating a STATUS
write is harmless; a second identical CMD write is dropped and sets WERR. -/
def Obligations.RepeatedAccessesAreIdempotentButForCmd : Prop :=
  (∀ (s : State) (w : RegWord), s.inReset = false →
    sameRegisters s (hostAccess (read32 (offsetOf w)) s) ∧
    (hostAccess (read32 (offsetOf w)) (hostAccess (read32 (offsetOf w)) s)).responses =
      s.responses ++ [.data (readReg w s), .data (readReg w s)]) ∧
  (∀ (s : State) (w : RegWord) (v : Word), s.inReset = false → w ≠ .cmd →
    sameRegisters (hostAccess (write32 (offsetOf w) v) s)
      (hostAccess (write32 (offsetOf w) v) (hostAccess (write32 (offsetOf w) v) s))) ∧
  (∀ (s : State) (v : Word), s.inReset = false → s.busy = false →
    sameRegisters { s with cmd := v, busy := true, done := false, errcode := 0, werr := true }
      (hostAccess (write32 0x0C v) (hostAccess (write32 0x0C v) s)))

/-- R51: the window is the 256 bytes from GF_BASE, which is a multiple of 0x100; an address outside it is not
addressed to the block. -/
def Obligations.WindowIsThe256BytesAtGfBase : Prop :=
  Config.gfBase % 0x100 = 0 ∧
  (∀ off : Offset, windowOffset (Config.gfBase + off.toNat) = some off) ∧
  (∀ (addr : Nat) (width : AccessWidth) (op : BusOp),
    addr < Config.gfBase ∨ Config.gfBase + 0xFF < addr → eventAt addr width op = none)

/-- Section 4 of 30_encoding.md and section 3 of 10_state.md: `ld128` into A, B or E of an idle block leaves
that register equal to the value and every other register as before. -/
def Obligations.Ld128LoadsTheRegister : Prop :=
  ∀ (s : State) (v : Elem) (rest : List Event), s.inReset = false → s.busy = false →
    (s.inputs = hostEvents (ld128 .a v) ++ rest →
      Host.Core.run Sys2Proof.core 4 s =
        .next { s with a := v, inputs := rest, responses := s.responses ++ [.ok, .ok, .ok, .ok] }) ∧
    (s.inputs = hostEvents (ld128 .b v) ++ rest →
      Host.Core.run Sys2Proof.core 4 s =
        .next { s with b := v, inputs := rest, responses := s.responses ++ [.ok, .ok, .ok, .ok] }) ∧
    (s.inputs = hostEvents (ld128 .e v) ++ rest →
      Host.Core.run Sys2Proof.core 4 s =
        .next { s with e := v, inputs := rest, responses := s.responses ++ [.ok, .ok, .ok, .ok] })

/-- Section 4 of 70_reset_and_hazards.md: four word reads of a 128-bit register, the engine's step falling
after k of them, return the first k words of the old value and the other words of the new one; every split
point is a schedule of the model, and k = 0 or 4 gives one whole value. -/
def Obligations.EachWordReadIsTheValueAtItsOwnTime : Prop :=
  ∀ (s u : State) (x : Reg128) (k : Nat) (rest : List Event), k ≤ 4 → s.inReset = false → s.busy = true →
    engineStep s = .next u →
    s.inputs = (hostEvents (rd128 x 0)).take k ++ .engine :: ((hostEvents (rd128 x 0)).drop k ++ rest) →
    ∃ t : State, Host.Core.run Sys2Proof.core 5 s = .next t ∧ t.inputs = rest ∧ sameRegisters u t ∧
      t.responses = s.responses ++
        ([0, 1, 2, 3].take k).map (fun j => BusResponse.data (getWord (readReg128 x s) j)) ++
        ([0, 1, 2, 3].drop k).map (fun j => BusResponse.data (getWord (readReg128 x u) j)) ∧
      joinWords (getWord (readReg128 x u) 0) (getWord (readReg128 x u) 1) (getWord (readReg128 x u) 2)
        (getWord (readReg128 x u) 3) = readReg128 x u

/-- R18: a 16-byte string is read as the big-endian integer Σ b[k]·2^(8·(15 − k)); bit 7 of b[0] is element
bit 127; and reading an element out as bytes is the inverse. -/
def Obligations.ByteStringsReadBigEndian : Prop :=
  (∀ b : List Byte, b.length = 16 →
    elemOfBytes b =
      some (BitVec.ofNat 128 (∑ k ∈ Finset.range 16, (b.getD k 0).toNat * 2 ^ (8 * (15 - k))))) ∧
  (∀ (b : List Byte) (x : Elem), elemOfBytes b = some x → x.getLsbD 127 = (b.getD 0 0).getLsbD 7) ∧
  (∀ x : Elem, elemOfBytes (bytesOfElem x) = some x) ∧
  (∀ (b : List Byte) (x : Elem), elemOfBytes b = some x → bytesOfElem x = b)

/-! ### Which command writes what (10_state.md R34, 60_exceptions.md) -/

/-- R34: the register table of the rule. -/
def Obligations.CommandsWriteOnlyTheirRegisters : Prop :=
  ∀ (i : Instr) (s : State), ∃ t : State, exec i s = .next t ∧
    t.busy = false ∧ t.done = true ∧
    t.a = s.a ∧ t.b = s.b ∧ t.e = s.e ∧ t.thresh = s.thresh ∧ t.ctrlIe = s.ctrlIe ∧
    t.cmd = s.cmd ∧ t.werr = s.werr ∧
    t.inReset = s.inReset ∧ t.inputs = s.inputs ∧ t.responses = s.responses ∧
    readReg .id t = readReg .id s ∧
    (i ≠ .gfmul ∧ i ≠ .gfsqr ∧ i ≠ .gfexp → t.r = s.r) ∧
    (i ≠ .gford ∧ i ≠ .gfstr ∧ i ≠ .gfjdg → t.ord = s.ord) ∧
    (i ≠ .gfstr ∧ i ≠ .gfjdg → t.strength = s.strength) ∧
    (i ≠ .gfjdg → t.safe = s.safe) ∧
    (i ≠ .selftest → t.stp = s.stp ∧ t.stf = s.stf) ∧
    (t.errcode ≠ 0 → t.r = s.r ∧ t.ord = s.ord ∧ t.strength = s.strength ∧ t.safe = s.safe)

/-- R184: errors are precise. A command, of any word, that completes with a nonzero code leaves R, ORD,
STRENGTH and VERDICT with the values they had before the issue, whatever the host accessed meanwhile. -/
def Obligations.ErrorsArePrecise : Prop :=
  ∀ (s t : State) (w : Word) (accs : List Access) (rest : List Event),
    IssuedThen s w accs (.engine :: rest) →
    Host.Core.run Sys2Proof.core (accs.length + 2) s = .next t → t.errcode ≠ 0 →
    t.r = s.r ∧ t.ord = s.ord ∧ t.strength = s.strength ∧ t.safe = s.safe ∧ t.done = true ∧
    (decode w ≠ .command .selftest → t.stp = s.stp ∧ t.stf = s.stf)

/-- R183: the priority of the error codes; a command reports the first that applies. -/
def Obligations.ErrorPriority : Prop :=
  (∀ (s : State) (rest : List Event) (why : IllegalWord), EngineIsNext s rest → s.busy = true →
    decode s.cmd = .illegal why → ∃ t, step s = .next t ∧ t.errcode = 1) ∧
  (∀ (i : Instr) (s : State), i = .gford ∨ i = .gfstr → ∃ t, exec i s = .next t ∧
    t.errcode = if s.stf then 4 else if s.stp = false then 5 else if s.a = 0 then 3 else 0) ∧
  (∀ s : State, ∃ t, exec .gfjdg s = .next t ∧
    t.errcode = if s.stf then 4 else if s.stp = false then 5
      else if s.thresh.toNat = 0 ∨ 128 < s.thresh.toNat then 2 else if s.a = 0 then 3 else 0) ∧
  (∀ s : State, s.stf = true → ∃ t, exec .selftest s = .next t ∧ t.errcode = 4) ∧
  (∀ (i : Instr) (s : State), i = .nop ∨ i = .gfmul ∨ i = .gfsqr ∨ i = .gfexp →
    ∃ t, exec i s = .next t ∧ t.errcode = 0)

/-- Section 6 of 00_scope.md: a command's result depends only on the registers its rule names. -/
def Obligations.ResultsDependOnlyOnNamedOperands : Prop :=
  ∀ s s' t t' : State,
    (exec .gfmul s = .next t → exec .gfmul s' = .next t' → s.a = s'.a → s.b = s'.b → t.r = t'.r) ∧
    (exec .gfsqr s = .next t → exec .gfsqr s' = .next t' → s.a = s'.a → t.r = t'.r) ∧
    (exec .gfexp s = .next t → exec .gfexp s' = .next t' → s.a = s'.a → s.e = s'.e → t.r = t'.r) ∧
    (s.a = s'.a → s.stp = s'.stp → s.stf = s'.stf →
      (exec .gford s = .next t → exec .gford s' = .next t' →
        t.errcode = t'.errcode ∧ (t.errcode = 0 → t.ord = t'.ord)) ∧
      (exec .gfstr s = .next t → exec .gfstr s' = .next t' →
        t.errcode = t'.errcode ∧ (t.errcode = 0 → t.ord = t'.ord ∧ t.strength = t'.strength)) ∧
      (s.thresh = s'.thresh → exec .gfjdg s = .next t → exec .gfjdg s' = .next t' →
        t.errcode = t'.errcode ∧
        (t.errcode = 0 → t.ord = t'.ord ∧ t.strength = t'.strength ∧ t.safe = t'.safe)))

/-! ### NOP, GFMUL, GFSQR, GFEXP -/

/-- R150: NOP completes with OK and changes nothing but BUSY, DONE and ERRCODE; it is the word CMD holds
after reset, which reset does not issue. -/
def Obligations.NopOnlyCompletes : Prop :=
  (∀ s : State, exec .nop s = .next { s with errcode := 0, done := true, busy := false }) ∧
  encode .nop = 0x00000000 ∧ State.reset.cmd = encode .nop ∧ State.reset.busy = false ∧
  State.reset.done = false

/-- R104: GFMUL, in every state, ungated and for every operand: its result, its frame, its corner cases and
its example (a value the spec derives from R100). -/
def Obligations.GfmulResult : Prop :=
  encode .gfmul = 0x00000001 ∧
  (∀ s : State, exec .gfmul s = .next { s with r := gfMul s.a s.b, errcode := 0, done := true, busy := false }) ∧
  (∀ s : State, ∃ t : State, exec .gfmul s = .next t ∧
    (s.a = s.b → t.r = gfSqr s.a) ∧ (s.a = 0 ∨ s.b = 0 → t.r = 0) ∧ (s.a = gfOne → t.r = s.b)) ∧
  gfMul 0x00000000000000000000000000000001 0x40000000000000000000000000000000
    = 0xE1000000000000000000000000000000

/-- Section 1 of 40_gf128_arithmetic.md: what GFMUL leaves in R is the product of A and B as polynomials over
GF(2), read by R10, reduced modulo x^128 + x^7 + x^2 + x + 1. -/
def Obligations.GfmulMultipliesPolynomials : Prop :=
  ∀ s : State, ∃ t : State, exec .gfmul s = .next t ∧
    poly t.r = (poly s.a * poly s.b) %ₘ reductionPoly

/-- Section 1 of 40_gf128_arithmetic.md: gf_mul is commutative and associative, with ONE its identity and 0
absorbing. -/
def Obligations.GfMulIsACommutativeMonoid : Prop :=
  (∀ x y : Elem, gfMul x y = gfMul y x) ∧
  (∀ x y z : Elem, gfMul (gfMul x y) z = gfMul x (gfMul y z)) ∧
  (∀ x : Elem, gfMul x gfOne = x ∧ gfMul gfOne x = x) ∧
  (∀ x : Elem, gfMul x 0 = 0 ∧ gfMul 0 x = 0)

/-- Section 1 of 40_gf128_arithmetic.md: gf_mul(x, y) = 0 iff x = 0 or y = 0. -/
def Obligations.GfMulHasNoZeroDivisors : Prop :=
  ∀ x y : Elem, gfMul x y = 0 ↔ x = 0 ∨ y = 0

/-- R105: GFSQR, in every state: its result, its frame (B is not read), its corner cases and its example (a
value the spec derives from R103 and R100). -/
def Obligations.GfsqrResult : Prop :=
  encode .gfsqr = 0x00000002 ∧
  (∀ s : State, exec .gfsqr s = .next { s with r := gfSqr s.a, errcode := 0, done := true, busy := false }) ∧
  (∀ x : Elem, gfSqr x = gfMul x x) ∧ gfSqr 0 = 0 ∧ gfSqr gfOne = gfOne ∧
  gfSqr 0x00000000000000008000000000000000 = 0xE1000000000000000000000000000000

/-- Section 5 of 40_gf128_arithmetic.md: GFEXP, in every state: its result and frame, its corner cases E = 0,
A = 0 and E = 1, and its example. -/
def Obligations.GfexpResult : Prop :=
  encode .gfexp = 0x00000003 ∧
  (∀ s : State,
    exec .gfexp s = .next { s with r := gfExp s.a s.e.toNat, errcode := 0, done := true, busy := false }) ∧
  (∀ s : State, ∃ t : State, exec .gfexp s = .next t ∧ (s.e = 0 → t.r = gfOne) ∧
    (s.a = 0 → s.e ≠ 0 → t.r = 0) ∧ (s.e = 1 → t.r = s.a)) ∧
  gfExp 0x40000000000000000000000000000000 128 = 0xE1000000000000000000000000000000

/-- R109: the laws the source states of the arithmetic. -/
def Obligations.SourceLawsOfTheArithmetic : Prop :=
  (∀ x y : Elem, (gfMul x y).toNat < 2 ^ 128) ∧
  (∀ x : Elem, gfMul x gfOne = x) ∧
  (∀ x : Elem, gfExp x 1 = x) ∧ (∀ x : Elem, gfExp x 0 = gfOne) ∧
  (∀ (x : Elem) (m n : Nat), gfExp x (m + n) = gfMul (gfExp x m) (gfExp x n))

/-- Sections 4 and 5 of 40_gf128_arithmetic.md: GFEXP with E = 2^128 − 1 and A ≠ 0 leaves ONE in R. -/
def Obligations.GfexpToTheGroupOrderIsOne : Prop :=
  ∀ s : State, s.a ≠ 0 → s.e = 0xFFFFFFFFFFFFFFFFFFFFFFFFFFFFFFFF →
    ∃ t : State, exec .gfexp s = .next t ∧ t.r = gfOne

/-! ### GFORD (41_order_oracle.md) -/

/-- Section 2 of 41_order_oracle.md: GFORD with the self-test passed and A ≠ 0 writes gf_order(A) to ORD,
completes with OK and changes nothing else; A = ONE gives ORD = 1. -/
def Obligations.GfordResult : Prop :=
  (∀ s : State, verified s → s.a ≠ 0 →
    exec .gford s =
      .next { s with ord := BitVec.ofNat 128 (gfOrder s.a), errcode := 0, done := true, busy := false }) ∧
  (∀ s : State, verified s → s.a = gfOne → ∃ t : State, exec .gford s = .next t ∧ t.ord = 1)

/-- Section 1 of 41_order_oracle.md: the ORD that GFORD leaves is the exact multiplicative order of A, the
least k ≥ 1 with gf_exp(A, k) = ONE. -/
def Obligations.GfordGivesTheExactOrder : Prop :=
  ∀ s : State, verified s → s.a ≠ 0 → ∃ t : State, exec .gford s = .next t ∧
    1 ≤ t.ord.toNat ∧ gfExp s.a t.ord.toNat = gfOne ∧
    ∀ k : Nat, 1 ≤ k → gfExp s.a k = gfOne → t.ord.toNat ≤ k

/-- R126: the order of every nonzero x divides 2^128 − 1, and x to its order is the identity. -/
def Obligations.OrderDividesTheGroupOrder : Prop :=
  ∀ x : Elem, x ≠ 0 → gfOrder x ∣ 2 ^ 128 - 1 ∧ gfExp x (gfOrder x) = gfOne

/-- R125: the result of gf_order does not depend on the order in which FACTORS is visited. -/
def Obligations.FactorOrderDoesNotMatter : Prop :=
  ∀ (x : Elem) (fs : List Nat), x ≠ 0 → fs.Perm [3, 5, 17, 257, 641, 65537, 274177, 6700417, 67280421310721] →
    orderOver fs x = gfOrder x

/-! ### GFSTR and GFJDG (42_strength_evaluator.md, 43_safety_judge.md) -/

/-- Section 1 of 42_strength_evaluator.md: strength_of is floor(log2) on 1 to 2^128 − 1: 0 iff o = 1, 127 iff
o ≥ 2^127; and, by the inferences the spec marks as its own there ("Strength 126 or more occurs only for ..."),
the listed values and, for the order of a nonzero element, 126 or more only for the two listed orders. -/
def Obligations.StrengthIsFloorLog2 : Prop :=
  (∀ o : Nat, 1 ≤ o → o ≤ 2 ^ 128 - 1 →
    2 ^ strengthOf o ≤ o ∧ o < 2 ^ (strengthOf o + 1) ∧ strengthOf o ≤ 127 ∧
    (strengthOf o = 0 ↔ o = 1) ∧ (strengthOf o = 127 ↔ 2 ^ 127 ≤ o)) ∧
  strengthOf (2 ^ 128 - 1) = 127 ∧ strengthOf ((2 ^ 128 - 1) / 3) = 126 ∧
  strengthOf ((2 ^ 128 - 1) / 5) = 125 ∧ strengthOf ((2 ^ 128 - 1) / 15) = 124 ∧
  strengthOf 3 = 1 ∧ strengthOf 5 = 2 ∧ strengthOf 17 = 4 ∧ strengthOf 257 = 8 ∧ strengthOf 65537 = 16 ∧
  (∀ x : Elem, x ≠ 0 → 126 ≤ strengthOf (gfOrder x) →
    gfOrder x = 2 ^ 128 - 1 ∨ gfOrder x = (2 ^ 128 - 1) / 3)

/-- Section 2 of 42_strength_evaluator.md: GFSTR with the self-test passed and A ≠ 0 writes the order to ORD
and its strength, 0 to 127, to STRENGTH.S, and changes nothing else; A = ONE gives S = 0. -/
def Obligations.GfstrResult : Prop :=
  ∀ s : State, verified s → s.a ≠ 0 → ∃ t : State, exec .gfstr s = .next t ∧
    t = { s with ord := BitVec.ofNat 128 (gfOrder s.a), strength := BitVec.ofNat 8 (strengthOf (gfOrder s.a)),
                 errcode := 0, done := true, busy := false } ∧
    t.strength.toNat = strengthOf t.ord.toNat ∧ t.strength.toNat ≤ 127 ∧
    (s.a = gfOne → t.ord = 1 ∧ t.strength = 0)

/-- Section 2 of 41_order_oracle.md and of 42_strength_evaluator.md: GFORD and GFSTR turned away by a check
write no register but STATUS. -/
def Obligations.GfordAndGfstrErrorsWriteOnlyStatus : Prop :=
  ∀ (s : State) (i : Instr), i = .gford ∨ i = .gfstr →
    (s.stf = true → exec i s = .next (ended 4 s)) ∧
    (s.stf = false → s.stp = false → exec i s = .next (ended 5 s)) ∧
    (verified s → s.a = 0 → exec i s = .next (ended 3 s))

/-- Section 2 of 43_safety_judge.md: GFJDG with the self-test passed, THRESH.T in 1 to 128 and A ≠ 0 writes
ORD, STRENGTH.S and VERDICT.SAFE, and changes nothing else; SAFE is 1 iff the strength of the order is at
least the threshold. -/
def Obligations.GfjdgResult : Prop :=
  ∀ s : State, verified s → s.a ≠ 0 → 1 ≤ s.thresh.toNat → s.thresh.toNat ≤ 128 →
    ∃ t : State, exec .gfjdg s = .next t ∧
      t = { s with ord := BitVec.ofNat 128 (gfOrder s.a),
                   strength := BitVec.ofNat 8 (strengthOf (gfOrder s.a)), safe := t.safe,
                   errcode := 0, done := true, busy := false } ∧
      t.strength.toNat = strengthOf t.ord.toNat ∧ (t.safe = true ↔ s.thresh.toNat ≤ t.strength.toNat)

/-- Sections 1 and 2 of 43_safety_judge.md: THRESH.T = 0 and 129 to 255 are rejected with ERR_THRESH, never
clamped; 128 is legal and, by the spec's own inference ("judge(s, 128) = 0 for every strength the block can
produce"), gives SAFE = 0; the judge is monotonic non-decreasing in strength and non-increasing in threshold. -/
def Obligations.ThresholdIsCheckedNotClamped : Prop :=
  (∀ s t : Nat, judge s t = true ↔ s ≥ t) ∧
  (∀ s : State, verified s → s.thresh.toNat = 0 ∨ 129 ≤ s.thresh.toNat →
    exec .gfjdg s = .next (ended 2 s)) ∧
  (∀ s : State, verified s → s.a ≠ 0 → s.thresh.toNat = 128 →
    ∃ t : State, exec .gfjdg s = .next t ∧ t.errcode = 0 ∧ t.safe = false) ∧
  (∀ s s' t t' : Nat, s ≤ s' → t' ≤ t → judge s t = true → judge s' t = true ∧ judge s t' = true)

/-- R143: an element whose strength is exactly 126 is judged safe at threshold 126 and not at 127. -/
def Obligations.ThresholdBoundaryAt126 : Prop :=
  ∀ s : State, verified s → s.a ≠ 0 → strengthOf (gfOrder s.a) = 126 →
    (s.thresh = 126 → ∃ t : State, exec .gfjdg s = .next t ∧ t.safe = true) ∧
    (s.thresh = 127 → ∃ t : State, exec .gfjdg s = .next t ∧ t.safe = false)

/-! ### SELFTEST (44_selftest_and_control.md) -/

/-- Section 3 of 44_selftest_and_control.md, an inference the spec marks as its own ("Under the rules of this
spec, SELFTEST always passes."): SELFTEST in every state with STF = 0 sets STP, completes with OK, and changes
nothing else. It rests on the model's choice of assumption 10 (DEDUCED, DESIGN CHOICE, unsafe): the arithmetic is
that of the spec, and defective hardware, whose SELFTEST may fail (I13), is not covered. -/
def Obligations.SelftestPasses : Prop :=
  ∀ s : State, s.stf = false →
    exec .selftest s = .next { s with stp := true, errcode := 0, done := true, busy := false }

/-- Section 3 of 44_selftest_and_control.md: once STF is 1, SELFTEST completes with ERR_SELFTEST and changes
nothing else, and no event but the assertion of reset clears STF or opens the gate. -/
def Obligations.SelftestFailureLastsUntilReset : Prop :=
  (∀ s : State, s.stf = true → exec .selftest s = .next (ended 4 s)) ∧
  (∀ s t : State, s.stf = true → step s = .next t → (∀ rest, s.inputs ≠ .resetAssert :: rest) →
    t.stf = true ∧ t.stp = s.stp ∧ t.ord = s.ord ∧ t.strength = s.strength ∧ t.safe = s.safe)

/-- Section 3 of 44_selftest_and_control.md, an inference the spec marks as its own ("has STF = 0 in every
reachable state") that rests on the model's choice of assumption 10 (defective hardware, I13, is not covered):
the two constants have strengths 93 and 127, and STF is 0 right after reset and after every
step from a state where it is 0. -/
def Obligations.StfIsNeverSet : Prop :=
  strengthOf (gfOrder 0x4EBB4ECC7128973C9B889C8BDF980D7A) = 93 ∧
  strengthOf (gfOrder 0xFDE4FBAE4A09E020EFF722969F83832B) = 127 ∧
  State.reset.stf = false ∧
  (∀ s t : State, s.stf = false → step s = .next t → t.stf = false)
end

