-- ==== Sys2Proof/Laws/State.lean ====
section
/-! SUPPORT. One lemma per field per named update of the state, true by rfl, so that no proof unfolds an
update. -/

namespace Sys2Proof.Laws

open Sys2Proof.Machine

/-! ### complete -/

@[simp] theorem complete_ctrlIe (c : ErrCode) (s : State) : (complete c s).ctrlIe = s.ctrlIe := rfl
@[simp] theorem complete_busy (c : ErrCode) (s : State) : (complete c s).busy = false := rfl
@[simp] theorem complete_done (c : ErrCode) (s : State) : (complete c s).done = true := rfl
@[simp] theorem complete_stp (c : ErrCode) (s : State) : (complete c s).stp = s.stp := rfl
@[simp] theorem complete_stf (c : ErrCode) (s : State) : (complete c s).stf = s.stf := rfl
@[simp] theorem complete_werr (c : ErrCode) (s : State) : (complete c s).werr = s.werr := rfl
@[simp] theorem complete_errcode (c : ErrCode) (s : State) : (complete c s).errcode = errBits c := rfl
@[simp] theorem complete_cmd (c : ErrCode) (s : State) : (complete c s).cmd = s.cmd := rfl
@[simp] theorem complete_thresh (c : ErrCode) (s : State) : (complete c s).thresh = s.thresh := rfl
@[simp] theorem complete_strength (c : ErrCode) (s : State) : (complete c s).strength = s.strength := rfl
@[simp] theorem complete_safe (c : ErrCode) (s : State) : (complete c s).safe = s.safe := rfl
@[simp] theorem complete_a (c : ErrCode) (s : State) : (complete c s).a = s.a := rfl
@[simp] theorem complete_b (c : ErrCode) (s : State) : (complete c s).b = s.b := rfl
@[simp] theorem complete_e (c : ErrCode) (s : State) : (complete c s).e = s.e := rfl
@[simp] theorem complete_r (c : ErrCode) (s : State) : (complete c s).r = s.r := rfl
@[simp] theorem complete_ord (c : ErrCode) (s : State) : (complete c s).ord = s.ord := rfl
@[simp] theorem complete_inReset (c : ErrCode) (s : State) : (complete c s).inReset = s.inReset := rfl
@[simp] theorem complete_inputs (c : ErrCode) (s : State) : (complete c s).inputs = s.inputs := rfl
@[simp] theorem complete_responses (c : ErrCode) (s : State) : (complete c s).responses = s.responses := rfl

/-! ### issue -/

@[simp] theorem issue_ctrlIe (w : Word) (s : State) : (issue w s).ctrlIe = s.ctrlIe := rfl
@[simp] theorem issue_busy (w : Word) (s : State) : (issue w s).busy = true := rfl
@[simp] theorem issue_done (w : Word) (s : State) : (issue w s).done = false := rfl
@[simp] theorem issue_stp (w : Word) (s : State) : (issue w s).stp = s.stp := rfl
@[simp] theorem issue_stf (w : Word) (s : State) : (issue w s).stf = s.stf := rfl
@[simp] theorem issue_werr (w : Word) (s : State) : (issue w s).werr = s.werr := rfl
@[simp] theorem issue_errcode (w : Word) (s : State) : (issue w s).errcode = 0 := rfl
@[simp] theorem issue_cmd (w : Word) (s : State) : (issue w s).cmd = w := rfl
@[simp] theorem issue_thresh (w : Word) (s : State) : (issue w s).thresh = s.thresh := rfl
@[simp] theorem issue_strength (w : Word) (s : State) : (issue w s).strength = s.strength := rfl
@[simp] theorem issue_safe (w : Word) (s : State) : (issue w s).safe = s.safe := rfl
@[simp] theorem issue_a (w : Word) (s : State) : (issue w s).a = s.a := rfl
@[simp] theorem issue_b (w : Word) (s : State) : (issue w s).b = s.b := rfl
@[simp] theorem issue_e (w : Word) (s : State) : (issue w s).e = s.e := rfl
@[simp] theorem issue_r (w : Word) (s : State) : (issue w s).r = s.r := rfl
@[simp] theorem issue_ord (w : Word) (s : State) : (issue w s).ord = s.ord := rfl
@[simp] theorem issue_inReset (w : Word) (s : State) : (issue w s).inReset = s.inReset := rfl
@[simp] theorem issue_inputs (w : Word) (s : State) : (issue w s).inputs = s.inputs := rfl
@[simp] theorem issue_responses (w : Word) (s : State) : (issue w s).responses = s.responses := rfl

/-! ### placeCommand -/

@[simp] theorem placeCommand_ctrlIe (w : Word) (s : State) : (placeCommand w s).ctrlIe = s.ctrlIe := rfl
@[simp] theorem placeCommand_busy (w : Word) (s : State) : (placeCommand w s).busy = true := rfl
@[simp] theorem placeCommand_done (w : Word) (s : State) : (placeCommand w s).done = s.done := rfl
@[simp] theorem placeCommand_stp (w : Word) (s : State) : (placeCommand w s).stp = s.stp := rfl
@[simp] theorem placeCommand_stf (w : Word) (s : State) : (placeCommand w s).stf = s.stf := rfl
@[simp] theorem placeCommand_werr (w : Word) (s : State) : (placeCommand w s).werr = s.werr := rfl
@[simp] theorem placeCommand_errcode (w : Word) (s : State) : (placeCommand w s).errcode = s.errcode := rfl
@[simp] theorem placeCommand_cmd (w : Word) (s : State) : (placeCommand w s).cmd = w := rfl
@[simp] theorem placeCommand_thresh (w : Word) (s : State) : (placeCommand w s).thresh = s.thresh := rfl
@[simp] theorem placeCommand_strength (w : Word) (s : State) : (placeCommand w s).strength = s.strength := rfl
@[simp] theorem placeCommand_safe (w : Word) (s : State) : (placeCommand w s).safe = s.safe := rfl
@[simp] theorem placeCommand_a (w : Word) (s : State) : (placeCommand w s).a = s.a := rfl
@[simp] theorem placeCommand_b (w : Word) (s : State) : (placeCommand w s).b = s.b := rfl
@[simp] theorem placeCommand_e (w : Word) (s : State) : (placeCommand w s).e = s.e := rfl
@[simp] theorem placeCommand_r (w : Word) (s : State) : (placeCommand w s).r = s.r := rfl
@[simp] theorem placeCommand_ord (w : Word) (s : State) : (placeCommand w s).ord = s.ord := rfl
@[simp] theorem placeCommand_inReset (w : Word) (s : State) : (placeCommand w s).inReset = s.inReset := rfl
@[simp] theorem placeCommand_inputs (w : Word) (s : State) : (placeCommand w s).inputs = [] := rfl
@[simp] theorem placeCommand_responses (w : Word) (s : State) : (placeCommand w s).responses = s.responses := rfl

/-! ### respond -/

@[simp] theorem respond_ctrlIe (x : BusResponse) (s : State) : (respond x s).ctrlIe = s.ctrlIe := rfl
@[simp] theorem respond_busy (x : BusResponse) (s : State) : (respond x s).busy = s.busy := rfl
@[simp] theorem respond_done (x : BusResponse) (s : State) : (respond x s).done = s.done := rfl
@[simp] theorem respond_stp (x : BusResponse) (s : State) : (respond x s).stp = s.stp := rfl
@[simp] theorem respond_stf (x : BusResponse) (s : State) : (respond x s).stf = s.stf := rfl
@[simp] theorem respond_werr (x : BusResponse) (s : State) : (respond x s).werr = s.werr := rfl
@[simp] theorem respond_errcode (x : BusResponse) (s : State) : (respond x s).errcode = s.errcode := rfl
@[simp] theorem respond_cmd (x : BusResponse) (s : State) : (respond x s).cmd = s.cmd := rfl
@[simp] theorem respond_thresh (x : BusResponse) (s : State) : (respond x s).thresh = s.thresh := rfl
@[simp] theorem respond_strength (x : BusResponse) (s : State) : (respond x s).strength = s.strength := rfl
@[simp] theorem respond_safe (x : BusResponse) (s : State) : (respond x s).safe = s.safe := rfl
@[simp] theorem respond_a (x : BusResponse) (s : State) : (respond x s).a = s.a := rfl
@[simp] theorem respond_b (x : BusResponse) (s : State) : (respond x s).b = s.b := rfl
@[simp] theorem respond_e (x : BusResponse) (s : State) : (respond x s).e = s.e := rfl
@[simp] theorem respond_r (x : BusResponse) (s : State) : (respond x s).r = s.r := rfl
@[simp] theorem respond_ord (x : BusResponse) (s : State) : (respond x s).ord = s.ord := rfl
@[simp] theorem respond_inReset (x : BusResponse) (s : State) : (respond x s).inReset = s.inReset := rfl
@[simp] theorem respond_inputs (x : BusResponse) (s : State) : (respond x s).inputs = s.inputs := rfl
@[simp] theorem respond_responses (x : BusResponse) (s : State) : (respond x s).responses = s.responses ++ [x] := rfl

/-! ### releaseReset -/

@[simp] theorem releaseReset_ctrlIe (s : State) : (releaseReset s).ctrlIe = s.ctrlIe := rfl
@[simp] theorem releaseReset_busy (s : State) : (releaseReset s).busy = s.busy := rfl
@[simp] theorem releaseReset_done (s : State) : (releaseReset s).done = s.done := rfl
@[simp] theorem releaseReset_stp (s : State) : (releaseReset s).stp = s.stp := rfl
@[simp] theorem releaseReset_stf (s : State) : (releaseReset s).stf = s.stf := rfl
@[simp] theorem releaseReset_werr (s : State) : (releaseReset s).werr = s.werr := rfl
@[simp] theorem releaseReset_errcode (s : State) : (releaseReset s).errcode = s.errcode := rfl
@[simp] theorem releaseReset_cmd (s : State) : (releaseReset s).cmd = s.cmd := rfl
@[simp] theorem releaseReset_thresh (s : State) : (releaseReset s).thresh = s.thresh := rfl
@[simp] theorem releaseReset_strength (s : State) : (releaseReset s).strength = s.strength := rfl
@[simp] theorem releaseReset_safe (s : State) : (releaseReset s).safe = s.safe := rfl
@[simp] theorem releaseReset_a (s : State) : (releaseReset s).a = s.a := rfl
@[simp] theorem releaseReset_b (s : State) : (releaseReset s).b = s.b := rfl
@[simp] theorem releaseReset_e (s : State) : (releaseReset s).e = s.e := rfl
@[simp] theorem releaseReset_r (s : State) : (releaseReset s).r = s.r := rfl
@[simp] theorem releaseReset_ord (s : State) : (releaseReset s).ord = s.ord := rfl
@[simp] theorem releaseReset_inReset (s : State) : (releaseReset s).inReset = false := rfl
@[simp] theorem releaseReset_inputs (s : State) : (releaseReset s).inputs = s.inputs := rfl
@[simp] theorem releaseReset_responses (s : State) : (releaseReset s).responses = s.responses := rfl

/-! ### assertReset -/

@[simp] theorem assertReset_ctrlIe (s : State) : (assertReset s).ctrlIe = false := rfl
@[simp] theorem assertReset_busy (s : State) : (assertReset s).busy = false := rfl
@[simp] theorem assertReset_done (s : State) : (assertReset s).done = false := rfl
@[simp] theorem assertReset_stp (s : State) : (assertReset s).stp = false := rfl
@[simp] theorem assertReset_stf (s : State) : (assertReset s).stf = false := rfl
@[simp] theorem assertReset_werr (s : State) : (assertReset s).werr = false := rfl
@[simp] theorem assertReset_errcode (s : State) : (assertReset s).errcode = 0 := rfl
@[simp] theorem assertReset_cmd (s : State) : (assertReset s).cmd = 0 := rfl
@[simp] theorem assertReset_thresh (s : State) : (assertReset s).thresh = 126 := rfl
@[simp] theorem assertReset_strength (s : State) : (assertReset s).strength = 0 := rfl
@[simp] theorem assertReset_safe (s : State) : (assertReset s).safe = false := rfl
@[simp] theorem assertReset_a (s : State) : (assertReset s).a = 0 := rfl
@[simp] theorem assertReset_b (s : State) : (assertReset s).b = 0 := rfl
@[simp] theorem assertReset_e (s : State) : (assertReset s).e = 0 := rfl
@[simp] theorem assertReset_r (s : State) : (assertReset s).r = 0 := rfl
@[simp] theorem assertReset_ord (s : State) : (assertReset s).ord = 0 := rfl
@[simp] theorem assertReset_inReset (s : State) : (assertReset s).inReset = true := rfl
@[simp] theorem assertReset_inputs (s : State) : (assertReset s).inputs = s.inputs := rfl
@[simp] theorem assertReset_responses (s : State) : (assertReset s).responses = s.responses := rfl

/-! ### writeStatus -/

@[simp] theorem writeStatus_ctrlIe (v : Word) (s : State) : (writeStatus v s).ctrlIe = s.ctrlIe := rfl
@[simp] theorem writeStatus_busy (v : Word) (s : State) : (writeStatus v s).busy = s.busy := rfl
@[simp] theorem writeStatus_done (v : Word) (s : State) : (writeStatus v s).done = (s.done && !v.getLsbD 1) := rfl
@[simp] theorem writeStatus_stp (v : Word) (s : State) : (writeStatus v s).stp = s.stp := rfl
@[simp] theorem writeStatus_stf (v : Word) (s : State) : (writeStatus v s).stf = s.stf := rfl
@[simp] theorem writeStatus_werr (v : Word) (s : State) : (writeStatus v s).werr = (s.werr && !v.getLsbD 5) := rfl
@[simp] theorem writeStatus_errcode (v : Word) (s : State) : (writeStatus v s).errcode = s.errcode := rfl
@[simp] theorem writeStatus_cmd (v : Word) (s : State) : (writeStatus v s).cmd = s.cmd := rfl
@[simp] theorem writeStatus_thresh (v : Word) (s : State) : (writeStatus v s).thresh = s.thresh := rfl
@[simp] theorem writeStatus_strength (v : Word) (s : State) : (writeStatus v s).strength = s.strength := rfl
@[simp] theorem writeStatus_safe (v : Word) (s : State) : (writeStatus v s).safe = s.safe := rfl
@[simp] theorem writeStatus_a (v : Word) (s : State) : (writeStatus v s).a = s.a := rfl
@[simp] theorem writeStatus_b (v : Word) (s : State) : (writeStatus v s).b = s.b := rfl
@[simp] theorem writeStatus_e (v : Word) (s : State) : (writeStatus v s).e = s.e := rfl
@[simp] theorem writeStatus_r (v : Word) (s : State) : (writeStatus v s).r = s.r := rfl
@[simp] theorem writeStatus_ord (v : Word) (s : State) : (writeStatus v s).ord = s.ord := rfl
@[simp] theorem writeStatus_inReset (v : Word) (s : State) : (writeStatus v s).inReset = s.inReset := rfl
@[simp] theorem writeStatus_inputs (v : Word) (s : State) : (writeStatus v s).inputs = s.inputs := rfl
@[simp] theorem writeStatus_responses (v : Word) (s : State) : (writeStatus v s).responses = s.responses := rfl

/-! ### finishField -/

@[simp] theorem finishField_ctrlIe (x : Elem) (s : State) : (finishField x s).ctrlIe = s.ctrlIe := rfl
@[simp] theorem finishField_busy (x : Elem) (s : State) : (finishField x s).busy = false := rfl
@[simp] theorem finishField_done (x : Elem) (s : State) : (finishField x s).done = true := rfl
@[simp] theorem finishField_stp (x : Elem) (s : State) : (finishField x s).stp = s.stp := rfl
@[simp] theorem finishField_stf (x : Elem) (s : State) : (finishField x s).stf = s.stf := rfl
@[simp] theorem finishField_werr (x : Elem) (s : State) : (finishField x s).werr = s.werr := rfl
@[simp] theorem finishField_errcode (x : Elem) (s : State) : (finishField x s).errcode = 0 := rfl
@[simp] theorem finishField_cmd (x : Elem) (s : State) : (finishField x s).cmd = s.cmd := rfl
@[simp] theorem finishField_thresh (x : Elem) (s : State) : (finishField x s).thresh = s.thresh := rfl
@[simp] theorem finishField_strength (x : Elem) (s : State) : (finishField x s).strength = s.strength := rfl
@[simp] theorem finishField_safe (x : Elem) (s : State) : (finishField x s).safe = s.safe := rfl
@[simp] theorem finishField_a (x : Elem) (s : State) : (finishField x s).a = s.a := rfl
@[simp] theorem finishField_b (x : Elem) (s : State) : (finishField x s).b = s.b := rfl
@[simp] theorem finishField_e (x : Elem) (s : State) : (finishField x s).e = s.e := rfl
@[simp] theorem finishField_r (x : Elem) (s : State) : (finishField x s).r = x := rfl
@[simp] theorem finishField_ord (x : Elem) (s : State) : (finishField x s).ord = s.ord := rfl
@[simp] theorem finishField_inReset (x : Elem) (s : State) : (finishField x s).inReset = s.inReset := rfl
@[simp] theorem finishField_inputs (x : Elem) (s : State) : (finishField x s).inputs = s.inputs := rfl
@[simp] theorem finishField_responses (x : Elem) (s : State) : (finishField x s).responses = s.responses := rfl

/-! ### setOrder -/

@[simp] theorem setOrder_ctrlIe (o : Nat) (s : State) : (setOrder o s).ctrlIe = s.ctrlIe := rfl
@[simp] theorem setOrder_busy (o : Nat) (s : State) : (setOrder o s).busy = s.busy := rfl
@[simp] theorem setOrder_done (o : Nat) (s : State) : (setOrder o s).done = s.done := rfl
@[simp] theorem setOrder_stp (o : Nat) (s : State) : (setOrder o s).stp = s.stp := rfl
@[simp] theorem setOrder_stf (o : Nat) (s : State) : (setOrder o s).stf = s.stf := rfl
@[simp] theorem setOrder_werr (o : Nat) (s : State) : (setOrder o s).werr = s.werr := rfl
@[simp] theorem setOrder_errcode (o : Nat) (s : State) : (setOrder o s).errcode = s.errcode := rfl
@[simp] theorem setOrder_cmd (o : Nat) (s : State) : (setOrder o s).cmd = s.cmd := rfl
@[simp] theorem setOrder_thresh (o : Nat) (s : State) : (setOrder o s).thresh = s.thresh := rfl
@[simp] theorem setOrder_strength (o : Nat) (s : State) : (setOrder o s).strength = s.strength := rfl
@[simp] theorem setOrder_safe (o : Nat) (s : State) : (setOrder o s).safe = s.safe := rfl
@[simp] theorem setOrder_a (o : Nat) (s : State) : (setOrder o s).a = s.a := rfl
@[simp] theorem setOrder_b (o : Nat) (s : State) : (setOrder o s).b = s.b := rfl
@[simp] theorem setOrder_e (o : Nat) (s : State) : (setOrder o s).e = s.e := rfl
@[simp] theorem setOrder_r (o : Nat) (s : State) : (setOrder o s).r = s.r := rfl
@[simp] theorem setOrder_ord (o : Nat) (s : State) : (setOrder o s).ord = BitVec.ofNat 128 o := rfl
@[simp] theorem setOrder_inReset (o : Nat) (s : State) : (setOrder o s).inReset = s.inReset := rfl
@[simp] theorem setOrder_inputs (o : Nat) (s : State) : (setOrder o s).inputs = s.inputs := rfl
@[simp] theorem setOrder_responses (o : Nat) (s : State) : (setOrder o s).responses = s.responses := rfl

/-! ### setStrength -/

@[simp] theorem setStrength_ctrlIe (v : Nat) (s : State) : (setStrength v s).ctrlIe = s.ctrlIe := rfl
@[simp] theorem setStrength_busy (v : Nat) (s : State) : (setStrength v s).busy = s.busy := rfl
@[simp] theorem setStrength_done (v : Nat) (s : State) : (setStrength v s).done = s.done := rfl
@[simp] theorem setStrength_stp (v : Nat) (s : State) : (setStrength v s).stp = s.stp := rfl
@[simp] theorem setStrength_stf (v : Nat) (s : State) : (setStrength v s).stf = s.stf := rfl
@[simp] theorem setStrength_werr (v : Nat) (s : State) : (setStrength v s).werr = s.werr := rfl
@[simp] theorem setStrength_errcode (v : Nat) (s : State) : (setStrength v s).errcode = s.errcode := rfl
@[simp] theorem setStrength_cmd (v : Nat) (s : State) : (setStrength v s).cmd = s.cmd := rfl
@[simp] theorem setStrength_thresh (v : Nat) (s : State) : (setStrength v s).thresh = s.thresh := rfl
@[simp] theorem setStrength_strength (v : Nat) (s : State) : (setStrength v s).strength = BitVec.ofNat 8 v := rfl
@[simp] theorem setStrength_safe (v : Nat) (s : State) : (setStrength v s).safe = s.safe := rfl
@[simp] theorem setStrength_a (v : Nat) (s : State) : (setStrength v s).a = s.a := rfl
@[simp] theorem setStrength_b (v : Nat) (s : State) : (setStrength v s).b = s.b := rfl
@[simp] theorem setStrength_e (v : Nat) (s : State) : (setStrength v s).e = s.e := rfl
@[simp] theorem setStrength_r (v : Nat) (s : State) : (setStrength v s).r = s.r := rfl
@[simp] theorem setStrength_ord (v : Nat) (s : State) : (setStrength v s).ord = s.ord := rfl
@[simp] theorem setStrength_inReset (v : Nat) (s : State) : (setStrength v s).inReset = s.inReset := rfl
@[simp] theorem setStrength_inputs (v : Nat) (s : State) : (setStrength v s).inputs = s.inputs := rfl
@[simp] theorem setStrength_responses (v : Nat) (s : State) : (setStrength v s).responses = s.responses := rfl

/-! ### setVerdict -/

@[simp] theorem setVerdict_ctrlIe (v : Bool) (s : State) : (setVerdict v s).ctrlIe = s.ctrlIe := rfl
@[simp] theorem setVerdict_busy (v : Bool) (s : State) : (setVerdict v s).busy = s.busy := rfl
@[simp] theorem setVerdict_done (v : Bool) (s : State) : (setVerdict v s).done = s.done := rfl
@[simp] theorem setVerdict_stp (v : Bool) (s : State) : (setVerdict v s).stp = s.stp := rfl
@[simp] theorem setVerdict_stf (v : Bool) (s : State) : (setVerdict v s).stf = s.stf := rfl
@[simp] theorem setVerdict_werr (v : Bool) (s : State) : (setVerdict v s).werr = s.werr := rfl
@[simp] theorem setVerdict_errcode (v : Bool) (s : State) : (setVerdict v s).errcode = s.errcode := rfl
@[simp] theorem setVerdict_cmd (v : Bool) (s : State) : (setVerdict v s).cmd = s.cmd := rfl
@[simp] theorem setVerdict_thresh (v : Bool) (s : State) : (setVerdict v s).thresh = s.thresh := rfl
@[simp] theorem setVerdict_strength (v : Bool) (s : State) : (setVerdict v s).strength = s.strength := rfl
@[simp] theorem setVerdict_safe (v : Bool) (s : State) : (setVerdict v s).safe = v := rfl
@[simp] theorem setVerdict_a (v : Bool) (s : State) : (setVerdict v s).a = s.a := rfl
@[simp] theorem setVerdict_b (v : Bool) (s : State) : (setVerdict v s).b = s.b := rfl
@[simp] theorem setVerdict_e (v : Bool) (s : State) : (setVerdict v s).e = s.e := rfl
@[simp] theorem setVerdict_r (v : Bool) (s : State) : (setVerdict v s).r = s.r := rfl
@[simp] theorem setVerdict_ord (v : Bool) (s : State) : (setVerdict v s).ord = s.ord := rfl
@[simp] theorem setVerdict_inReset (v : Bool) (s : State) : (setVerdict v s).inReset = s.inReset := rfl
@[simp] theorem setVerdict_inputs (v : Bool) (s : State) : (setVerdict v s).inputs = s.inputs := rfl
@[simp] theorem setVerdict_responses (v : Bool) (s : State) : (setVerdict v s).responses = s.responses := rfl

/-! ### selftestPass -/

@[simp] theorem selftestPass_ctrlIe (s : State) : (selftestPass s).ctrlIe = s.ctrlIe := rfl
@[simp] theorem selftestPass_busy (s : State) : (selftestPass s).busy = false := rfl
@[simp] theorem selftestPass_done (s : State) : (selftestPass s).done = true := rfl
@[simp] theorem selftestPass_stp (s : State) : (selftestPass s).stp = true := rfl
@[simp] theorem selftestPass_stf (s : State) : (selftestPass s).stf = s.stf := rfl
@[simp] theorem selftestPass_werr (s : State) : (selftestPass s).werr = s.werr := rfl
@[simp] theorem selftestPass_errcode (s : State) : (selftestPass s).errcode = 0 := rfl
@[simp] theorem selftestPass_cmd (s : State) : (selftestPass s).cmd = s.cmd := rfl
@[simp] theorem selftestPass_thresh (s : State) : (selftestPass s).thresh = s.thresh := rfl
@[simp] theorem selftestPass_strength (s : State) : (selftestPass s).strength = s.strength := rfl
@[simp] theorem selftestPass_safe (s : State) : (selftestPass s).safe = s.safe := rfl
@[simp] theorem selftestPass_a (s : State) : (selftestPass s).a = s.a := rfl
@[simp] theorem selftestPass_b (s : State) : (selftestPass s).b = s.b := rfl
@[simp] theorem selftestPass_e (s : State) : (selftestPass s).e = s.e := rfl
@[simp] theorem selftestPass_r (s : State) : (selftestPass s).r = s.r := rfl
@[simp] theorem selftestPass_ord (s : State) : (selftestPass s).ord = s.ord := rfl
@[simp] theorem selftestPass_inReset (s : State) : (selftestPass s).inReset = s.inReset := rfl
@[simp] theorem selftestPass_inputs (s : State) : (selftestPass s).inputs = s.inputs := rfl
@[simp] theorem selftestPass_responses (s : State) : (selftestPass s).responses = s.responses := rfl

/-! ### selftestFail -/

@[simp] theorem selftestFail_ctrlIe (s : State) : (selftestFail s).ctrlIe = s.ctrlIe := rfl
@[simp] theorem selftestFail_busy (s : State) : (selftestFail s).busy = false := rfl
@[simp] theorem selftestFail_done (s : State) : (selftestFail s).done = true := rfl
@[simp] theorem selftestFail_stp (s : State) : (selftestFail s).stp = false := rfl
@[simp] theorem selftestFail_stf (s : State) : (selftestFail s).stf = true := rfl
@[simp] theorem selftestFail_werr (s : State) : (selftestFail s).werr = s.werr := rfl
@[simp] theorem selftestFail_errcode (s : State) : (selftestFail s).errcode = 4 := rfl
@[simp] theorem selftestFail_cmd (s : State) : (selftestFail s).cmd = s.cmd := rfl
@[simp] theorem selftestFail_thresh (s : State) : (selftestFail s).thresh = s.thresh := rfl
@[simp] theorem selftestFail_strength (s : State) : (selftestFail s).strength = s.strength := rfl
@[simp] theorem selftestFail_safe (s : State) : (selftestFail s).safe = s.safe := rfl
@[simp] theorem selftestFail_a (s : State) : (selftestFail s).a = s.a := rfl
@[simp] theorem selftestFail_b (s : State) : (selftestFail s).b = s.b := rfl
@[simp] theorem selftestFail_e (s : State) : (selftestFail s).e = s.e := rfl
@[simp] theorem selftestFail_r (s : State) : (selftestFail s).r = s.r := rfl
@[simp] theorem selftestFail_ord (s : State) : (selftestFail s).ord = s.ord := rfl
@[simp] theorem selftestFail_inReset (s : State) : (selftestFail s).inReset = s.inReset := rfl
@[simp] theorem selftestFail_inputs (s : State) : (selftestFail s).inputs = s.inputs := rfl
@[simp] theorem selftestFail_responses (s : State) : (selftestFail s).responses = s.responses := rfl

end Sys2Proof.Laws
end

