-- ==== Sys2Proof/Laws/Ops.lean ====
section
/-! SUPPORT. What each shared operation of Ops, Operands and Flags can do, said once. -/

namespace Sys2Proof.Laws

open Sys2Proof.Machine

@[simp] theorem orComplete_ok (s t : State) : orComplete .ok s t = t := rfl

theorem orComplete_of_ne {c : ErrCode} (h : c ≠ .ok) (s t : State) : orComplete c s t = complete c s :=
  if_neg h

/-- A check either lets the command go on or ends it with the check's code. -/
theorem orComplete_cases (c : ErrCode) (s t : State) :
    (c = .ok ∧ orComplete c s t = t) ∨ (c ≠ .ok ∧ orComplete c s t = complete c s) := by
  by_cases h : c = .ok
  · exact .inl ⟨h, if_pos h⟩
  · exact .inr ⟨h, if_neg h⟩

theorem verifiedCheck_eq_ok {s : State} : verifiedCheck s = .ok ↔ s.stf = false ∧ s.stp = true := by
  cases hf : s.stf <;> cases hp : s.stp <;> simp [verifiedCheck, hf, hp]

theorem verifiedCheck_of_stf {s : State} (h : s.stf = true) : verifiedCheck s = .selftest := by
  simp [verifiedCheck, h]

theorem verifiedCheck_of_not_stp {s : State} (hf : s.stf = false) (hp : s.stp = false) :
    verifiedCheck s = .notVerified := by
  simp [verifiedCheck, hf, hp]

theorem zeroCheck_eq_ok {s : State} : zeroCheck s = .ok ↔ s.a ≠ 0 := by
  unfold zeroCheck operandA
  split
  · next h => exact iff_of_false (by decide) (fun hn => hn h)
  · next h => exact iff_of_true rfl h

theorem zeroCheck_of_zero {s : State} (h : s.a = 0) : zeroCheck s = .zero :=
  if_pos h

theorem thresholdCheck_eq_ok {s : State} :
    thresholdCheck s = .ok ↔ 1 ≤ s.thresh.toNat ∧ s.thresh.toNat ≤ 128 := by
  unfold thresholdCheck operandT
  split
  · next h => exact iff_of_false (by decide) (by omega)
  · next h => exact iff_of_true rfl (by omega)

theorem thresholdCheck_of_out {s : State} (h : s.thresh.toNat = 0 ∨ 128 < s.thresh.toNat) :
    thresholdCheck s = .thresh :=
  if_pos (by unfold operandT; omega)

/-- Only the codes 0 to 5 are written (R180). -/
theorem errBits_le (c : ErrCode) : (errBits c).toNat ≤ 5 := by cases c <;> decide

theorem errBits_eq_zero {c : ErrCode} : errBits c = 0 ↔ c = .ok := by cases c <;> decide

/-- Bit i of a word of a 128-bit value (R24). -/
theorem getWord_getLsbD (x : Elem) (j : Fin 4) (i : Nat) :
    (getWord x j).getLsbD i = (decide (i < 32) && x.getLsbD (wordShift j + i)) := by
  simp [getWord]

/-- The low 32 bits of a 128-bit value, as a mask. -/
theorem wordMask_getLsbD (k : Nat) : (0xFFFFFFFF#128).getLsbD k = decide (k < 32) := by
  have h : (0xFFFFFFFF#128) = BitVec.setWidth 128 (BitVec.allOnes 32) := by decide
  rw [h, BitVec.getLsbD_setWidth, BitVec.getLsbD_allOnes]
  by_cases hk : k < 32
  · simp [hk, show k < 128 by omega]
  · simp [hk]

/-- Bit i of a 128-bit value with one word replaced (R24). -/
theorem setWord_getLsbD (x : Elem) (j : Fin 4) (v : Word) (i : Nat) (hi : i < 128) :
    (setWord x j v).getLsbD i =
      if wordShift j ≤ i ∧ i < wordShift j + 32 then v.getLsbD (i - wordShift j) else x.getLsbD i := by
  simp only [setWord, BitVec.getLsbD_or, BitVec.getLsbD_and, BitVec.getLsbD_not, BitVec.getLsbD_shiftLeft,
    wordMask_getLsbD, BitVec.getLsbD_setWidth, hi, decide_true, Bool.true_and]
  by_cases h1 : i < wordShift j
  · simp [h1, show ¬wordShift j ≤ i by omega]
  · by_cases h3 : i < wordShift j + 32
    · simp [h1, h3, show wordShift j ≤ i by omega, show i - wordShift j < 32 by omega,
        show i - wordShift j < 128 by omega]
    · have h6 : v.getLsbD (i - wordShift j) = false := BitVec.getLsbD_of_ge v _ (by omega)
      simp [h1, h3, h6, show ¬i - wordShift j < 32 by omega]

end Sys2Proof.Laws
end

