-- ==== Sys2Proof/Laws/Bus.lean ====
section
/-! SUPPORT. What a host access can do, said once. -/

namespace Sys2Proof.Laws

open Sys2Proof.Machine

/-- Each word of the window stands at its own offset (R20). -/
theorem regAt_offsetOf (w : RegWord) : regAt (offsetOf w) = some w := by
  cases w with
  | data x j => cases x <;> fin_cases j <;> decide
  | _ => decide

/-- A misaligned offset holds no register word (R52, R53). -/
theorem regAt_aligned {off : Offset} {w : RegWord} (h : regAt off = some w) : off.toNat % 4 = 0 := by
  unfold regAt at h
  split at h <;> simp_all

/-- A legal access of a mapped register word. -/
theorem busAccess_mapped {off : Offset} {w : RegWord} (h : regAt off = some w) (op : BusOp) (s : State) :
    busAccess ⟨.bits32, off, op⟩ s = accessReg w op s := by
  have ha := regAt_aligned h
  simp [busAccess, ha, h]

/-- A misaligned offset is unmapped in the same sense: both answer BusError (R52, R53). -/
theorem busAccess_unmapped {acc : Access} (h : regAt acc.off = none) (s : State) :
    busAccess acc s = respond (.busError acc.off) s := by
  unfold busAccess
  split
  · rfl
  · rw [h]

/-- An access that is not legal answers BusError (R52). -/
theorem busAccess_illegal {acc : Access} (h : acc.width ≠ .bits32 ∨ acc.off.toNat % 4 ≠ 0) (s : State) :
    busAccess acc s = respond (.busError acc.off) s :=
  if_pos h

/-- Outside reset an access answers BusError, or is a legal access of a mapped register word. -/
theorem busAccess_cases (acc : Access) (s : State) :
    busAccess acc s = respond (.busError acc.off) s ∨
      ∃ w, regAt acc.off = some w ∧ acc.width = .bits32 ∧ busAccess acc s = accessReg w acc.op s := by
  by_cases h : acc.width ≠ .bits32 ∨ acc.off.toNat % 4 ≠ 0
  · exact .inl (if_pos h)
  · cases hr : regAt acc.off with
    | none => exact .inl (busAccess_unmapped hr s)
    | some w =>
      refine .inr ⟨w, rfl, by by_contra hw; exact h (.inl hw), ?_⟩
      unfold busAccess
      rw [if_neg h, hr]

/-- A legal host access of a mapped register word, out of reset. -/
theorem hostAccess_mapped {off : Offset} {w : RegWord} {s : State} (hr : s.inReset = false)
    (h : regAt off = some w) (op : BusOp) : hostAccess ⟨.bits32, off, op⟩ s = accessReg w op s := by
  rw [hostAccess, hr, if_neg Bool.false_ne_true, busAccess_mapped h]

/-- Writing the same word twice is writing it once (R59). -/
theorem setWord_setWord (x : Elem) (j : Fin 4) (v : Word) : setWord (setWord x j v) j v = setWord x j v := by
  apply BitVec.eq_of_getLsbD_eq
  intro i hi
  simp only [setWord_getLsbD _ _ _ _ hi]
  split <;> rfl

/-- What a write can never touch (R55): results, self-test bits, the reset input, the schedule, the record. -/
theorem writeReg_frame (w : RegWord) (v : Word) (s : State) :
    (writeReg w v s).r = s.r ∧ (writeReg w v s).ord = s.ord ∧ (writeReg w v s).strength = s.strength ∧
    (writeReg w v s).safe = s.safe ∧ (writeReg w v s).stp = s.stp ∧ (writeReg w v s).stf = s.stf ∧
    (writeReg w v s).inReset = s.inReset ∧ (writeReg w v s).inputs = s.inputs ∧
    (writeReg w v s).responses = s.responses := by
  cases w with
  | data x j => cases x <;> cases hb : s.busy <;> simp [writeReg, writeData, whenIdle, hb]
  | _ => cases hb : s.busy <;> simp [writeReg, whenIdle, hb]

/-- While busy a write leaves the pending command and its operands as they are (R214). -/
theorem writeReg_busy (w : RegWord) (v : Word) {s : State} (hb : s.busy = true) :
    (writeReg w v s).busy = true ∧ (writeReg w v s).cmd = s.cmd ∧ (writeReg w v s).a = s.a ∧
    (writeReg w v s).b = s.b ∧ (writeReg w v s).e = s.e ∧ (writeReg w v s).thresh = s.thresh ∧
    (writeReg w v s).errcode = s.errcode ∧ (s.done = false → (writeReg w v s).done = false) := by
  cases w with
  | data x j => cases x <;> simp [writeReg, writeData, whenIdle, hb]
  | _ => simp +contextual [writeReg, whenIdle, hb]

/-- The frame of a host access, in reset or out of it, legal or not. -/
theorem hostAccess_frame (acc : Access) (s : State) :
    (hostAccess acc s).r = s.r ∧ (hostAccess acc s).ord = s.ord ∧ (hostAccess acc s).strength = s.strength ∧
    (hostAccess acc s).safe = s.safe ∧ (hostAccess acc s).stp = s.stp ∧ (hostAccess acc s).stf = s.stf ∧
    (hostAccess acc s).inReset = s.inReset ∧ (hostAccess acc s).inputs = s.inputs := by
  unfold hostAccess
  split
  · simp
  · rcases busAccess_cases acc s with h | ⟨w, -, -, h⟩
    · simp [h]
    · rw [h]
      cases hop : acc.op with
      | read => simp [accessReg]
      | write v =>
        obtain ⟨h1, h2, h3, h4, h5, h6, h7, h8, -⟩ := writeReg_frame w v s
        simp [accessReg, h1, h2, h3, h4, h5, h6, h7, h8]

/-- While busy no host access changes the pending command, its operands, ERRCODE, or sets DONE (R214). -/
theorem hostAccess_busy (acc : Access) {s : State} (hb : s.busy = true) :
    (hostAccess acc s).busy = true ∧ (hostAccess acc s).cmd = s.cmd ∧ (hostAccess acc s).a = s.a ∧
    (hostAccess acc s).b = s.b ∧ (hostAccess acc s).e = s.e ∧ (hostAccess acc s).thresh = s.thresh ∧
    (hostAccess acc s).errcode = s.errcode ∧ (s.done = false → (hostAccess acc s).done = false) := by
  unfold hostAccess
  split
  · simp [hb]
  · rcases busAccess_cases acc s with h | ⟨w, -, -, h⟩
    · simp [h, hb]
    · rw [h]
      cases hop : acc.op with
      | read => simp [accessReg, hb]
      | write v =>
        obtain ⟨h1, h2, h3, h4, h5, h6, h7, h8⟩ := writeReg_busy w v hb
        simpa [accessReg, h1, h2, h3, h4, h5, h6, h7] using h8

/-- Every access is answered once (R54, R55, R185). -/
theorem hostAccess_responses (acc : Access) (s : State) :
    ∃ resp, (hostAccess acc s).responses = s.responses ++ [resp] := by
  unfold hostAccess
  split
  · exact ⟨_, rfl⟩
  · rcases busAccess_cases acc s with h | ⟨w, -, -, h⟩
    · exact ⟨_, by rw [h]; rfl⟩
    · rw [h]
      cases hop : acc.op with
      | read => exact ⟨_, rfl⟩
      | write v => exact ⟨.ok, by simp [accessReg, (writeReg_frame w v s).2.2.2.2.2.2.2.2]⟩

end Sys2Proof.Laws
end

