-- ==== Sys2Proof/Laws/Gf128.lean ====
section
/-! SUPPORT. The small lemmas of the pure functions: one turn of the multiply loop and its linearity, the
recursion of gf_exp, the order loop, bit length, and what each of them is as a polynomial over GF(2). -/

namespace Sys2Proof.Laws

open Sys2Proof.Machine Sys2Proof.Safety

/-! ### The multiply loop (R100) -/

@[simp] theorem gfMulLoop_zero (y z v : Elem) : gfMulLoop y 0 z v = z := rfl

theorem gfMulLoop_succ (y z v : Elem) (i : Nat) :
    gfMulLoop y (i + 1) z v = gfMulLoop y i (if y.getLsbD i then z ^^^ v else z) (shiftReduce v) := rfl

/-- XOR of two XORs, regrouped. -/
theorem xor_regroup (p q r s : Elem) : (p ^^^ q) ^^^ (r ^^^ s) = (p ^^^ r) ^^^ (q ^^^ s) := by ac_rfl

/-- The step is a right shift, with RC added by bit 0. -/
theorem shiftReduce_eq (v : Elem) :
    shiftReduce v = (v >>> 1) ^^^ (if v.getLsbD 0 then reductionConst else 0) := by
  unfold shiftReduce
  split
  · rfl
  · exact (BitVec.xor_zero).symm

/-- Multiplication by x is additive. -/
theorem shiftReduce_xor (u v : Elem) : shiftReduce (u ^^^ v) = shiftReduce u ^^^ shiftReduce v := by
  rw [shiftReduce_eq, shiftReduce_eq u, shiftReduce_eq v, xor_regroup, BitVec.getLsbD_xor,
    BitVec.ushiftRight_xor_distrib]
  congr 1
  cases u.getLsbD 0 <;> cases v.getLsbD 0 <;> decide

@[simp] theorem shiftReduce_zero : shiftReduce 0 = 0 := by decide

/-- The loop is additive in the accumulator and the shifted operand together. -/
theorem gfMulLoop_xor (y : Elem) (i : Nat) (z z' v v' : Elem) :
    gfMulLoop y i (z ^^^ z') (v ^^^ v') = gfMulLoop y i z v ^^^ gfMulLoop y i z' v' := by
  induction i generalizing z z' v v' with
  | zero => rfl
  | succ i ih =>
    simp only [gfMulLoop_succ, shiftReduce_xor]
    rw [← ih]
    congr 1
    cases y.getLsbD i
    · rfl
    · exact xor_regroup z z' v v'

/-- gf_mul is additive in its first operand. -/
theorem gfMul_xor_left (x x' y : Elem) : gfMul (x ^^^ x') y = gfMul x y ^^^ gfMul x' y := by
  have h := gfMulLoop_xor y 128 0 0 x x'
  rwa [show (0 ^^^ 0 : Elem) = 0 by decide] at h

/-! ### The recursion of gf_exp (R106) -/

@[simp] theorem bitlen_zero : bitlen 0 = 0 := rfl

theorem bitlen_of_pos {n : Nat} (h : n ≠ 0) : bitlen n = bitlen (n / 2) + 1 := by
  by_cases h2 : n / 2 = 0
  · have : n = 1 := by omega
    subst this; rfl
  · rw [bitlen, bitlen, if_neg h, if_neg h2, Nat.log2_def, if_pos (by omega)]

@[simp] theorem gfExp_zero (x : Elem) : gfExp x 0 = gfOne := rfl

/-- The recursive case of gf_exp. -/
theorem gfExp_of_pos (x : Elem) {n : Nat} (h : n ≠ 0) :
    gfExp x n = if n % 2 = 1 then gfMul x (gfExp (gfSqr x) (n / 2)) else gfExp (gfSqr x) (n / 2) := by
  unfold gfExp
  rw [bitlen_of_pos h, gfExpDepth, if_neg h]

/-! ### Bit length and strength (R11, R130) -/

theorem strengthOf_of_pos {o : Nat} (h : o ≠ 0) : strengthOf o = o.log2 := by
  simp [strengthOf, bitlen, h]

/-! ### The order loop (R120) -/

@[simp] theorem orderOver_nil (x : Elem) : orderOver [] x = 1 := rfl

theorem foldl_orderStep (x : Elem) (fs : List Nat) (o : Nat) :
    fs.foldl (orderStep x) o = o * orderOver fs x := by
  induction fs generalizing o with
  | nil => simp [orderOver]
  | cons p fs ih =>
    simp only [orderOver, List.foldl_cons]
    rw [ih, ih (orderStep x 1 p), ← Nat.mul_assoc]
    congr 1
    unfold orderStep
    split <;> simp

/-- One factor of the order loop. -/
theorem orderOver_cons (x : Elem) (p : Nat) (fs : List Nat) :
    orderOver (p :: fs) x = (if gfExp x (groupOrder / p) ≠ gfOne then p else 1) * orderOver fs x := by
  rw [orderOver, List.foldl_cons, foldl_orderStep]
  congr 1
  simp [orderStep]

/-- The loop multiplies a subset of its factors, so what it answers divides their product. -/
theorem orderOver_dvd_prod (x : Elem) (fs : List Nat) : orderOver fs x ∣ fs.prod := by
  induction fs with
  | nil => simp
  | cons p fs ih =>
    rw [orderOver_cons, List.prod_cons]
    refine Nat.mul_dvd_mul ?_ ih
    split <;> simp

/-- The Known Factorization multiplies to the group order (R120). -/
theorem factors_prod : factors.prod = groupOrder := by decide

/-- What gf_order answers is a product of factors, so it divides the group order, whatever x is. -/
theorem gfOrder_dvd (x : Elem) : gfOrder x ∣ groupOrder := factors_prod ▸ orderOver_dvd_prod x factors

theorem gfOrder_ne_zero (x : Elem) : gfOrder x ≠ 0 :=
  fun h => absurd (Nat.eq_zero_of_zero_dvd (h ▸ gfOrder_dvd x)) (by decide)

/-- An order fits the 128-bit register ORD (R120). -/
theorem gfOrder_lt (x : Elem) : gfOrder x < 2 ^ 128 :=
  lt_of_le_of_lt (Nat.le_of_dvd (by decide) (gfOrder_dvd x)) (by decide)

theorem gfOrder_toNat (x : Elem) : (BitVec.ofNat 128 (gfOrder x)).toNat = gfOrder x :=
  Nat.mod_eq_of_lt (gfOrder_lt x)

/-- The strength of an order is 0 to 127 (R130). -/
theorem strengthOf_gfOrder_le (x : Elem) : strengthOf (gfOrder x) ≤ 127 := by
  rw [strengthOf_of_pos (gfOrder_ne_zero x)]
  exact Nat.le_of_lt_succ ((Nat.log2_lt (gfOrder_ne_zero x)).mpr (gfOrder_lt x))

/-! ### Field elements as polynomials (R10) -/

/-- The coefficient of x^i is bit 127 − i. -/
theorem poly_coeff (v : Elem) (i : Nat) :
    (poly v).coeff i = if i < 128 ∧ v.getLsbD (127 - i) = true then 1 else 0 := by
  unfold poly
  rw [Polynomial.finsetSum_coeff]
  have h : ∀ k ∈ Finset.range 128, (if v.getLsbD (127 - k) then (Polynomial.X : Polynomial (ZMod 2)) ^ k else 0).coeff i
      = if k = i then (if v.getLsbD (127 - i) then 1 else 0) else 0 := by
    intro k _
    by_cases hk : k = i
    · subst hk
      by_cases hv : v.getLsbD (127 - k) = true <;> simp [hv]
    · by_cases hv : v.getLsbD (127 - k) = true
      · simp [hv, hk, Polynomial.coeff_X_pow, Ne.symm hk]
      · simp [hv, hk]
  rw [Finset.sum_congr rfl h, Finset.sum_ite_eq' (Finset.range 128) i]
  by_cases hi : i < 128 <;> simp [hi]

/-- XOR of elements is addition of polynomials. -/
theorem poly_xor (u v : Elem) : poly (u ^^^ v) = poly u + poly v := by
  ext i
  rw [Polynomial.coeff_add, poly_coeff, poly_coeff, poly_coeff, BitVec.getLsbD_xor]
  have h : (1 : ZMod 2) + 1 = 0 := by decide
  cases u.getLsbD (127 - i) <;> cases v.getLsbD (127 - i) <;> by_cases hi : i < 128 <;> simp [hi, h]

@[simp] theorem poly_zero : poly 0 = 0 := by
  ext i; simp [poly_coeff]

/-- Different elements are different polynomials. -/
theorem poly_injective : Function.Injective poly := by
  intro u v h
  apply BitVec.eq_of_getLsbD_eq
  intro i hi
  have hc := congrArg (fun p => Polynomial.coeff p (127 - i)) h
  simp only [poly_coeff, show 127 - i < 128 by omega, show 127 - (127 - i) = i by omega, true_and] at hc
  cases hu : u.getLsbD i <;> cases hv : v.getLsbD i <;> simp_all

/-- An element is a polynomial of degree below 128. -/
theorem poly_degree_lt (v : Elem) : (poly v).degree < 128 := by
  refine (Polynomial.degree_lt_iff_coeff_zero (poly v) 128).mpr fun i hi => ?_
  rw [poly_coeff, if_neg]
  rintro ⟨h, -⟩
  exact absurd h (Nat.not_lt.mpr hi)

open Polynomial

/-- The reduction constant is x^7 + x^2 + x + 1. -/
theorem poly_reductionConst : poly reductionConst = X ^ 7 + X ^ 2 + X + 1 := by
  have h : ∀ i ∈ Finset.range 128, (if reductionConst.getLsbD (127 - i) then (X : (ZMod 2)[X]) ^ i else 0)
      = if i ∈ ({0, 1, 2, 7} : Finset Nat) then X ^ i else 0 := by
    intro i hi
    have : ∀ i < 128, reductionConst.getLsbD (127 - i) = decide (i ∈ ({0, 1, 2, 7} : Finset Nat)) := by decide
    rw [this i (Finset.mem_range.mp hi)]
    simp
  unfold poly
  rw [Finset.sum_congr rfl h, ← Finset.sum_filter,
    show (Finset.range 128).filter (fun i => i ∈ ({0, 1, 2, 7} : Finset Nat)) = {0, 1, 2, 7} by decide]
  simp
  ring

/-- A right shift multiplies by x, with bit 0 falling out as x^128. -/
theorem poly_ushiftRight (v : Elem) :
    X * poly v = poly (v >>> 1) + (if v.getLsbD 0 then X ^ 128 else 0) := by
  ext i
  cases i with
  | zero => 
    have h0 : (poly (v >>> 1)).coeff 0 = 0 := by simp [poly_coeff]
    cases v.getLsbD 0 <;> simp [h0]
  | succ i =>
    rw [coeff_X_mul, coeff_add, poly_coeff, poly_coeff, BitVec.getLsbD_ushiftRight]
    by_cases h : i + 1 < 128
    · have h1 : 1 + (126 - i) = 127 - i := by omega
      have h2 : i < 128 := by omega
      have h3 : i + 1 ≠ 128 := by omega
      have h4 : i ≠ 127 := by omega
      cases v.getLsbD 0 <;> simp [h, h1, h2, coeff_X_pow, h4]
    · by_cases h2 : i = 127
      · subst h2
        cases v.getLsbD 0 <;> simp [coeff_X_pow]
      · have h4 : ¬ i < 128 := by omega
        cases v.getLsbD 0 <;> simp [h, h4, coeff_X_pow, h2]

/-- The reduction polynomial is x^128 and the reduction constant. -/
theorem reductionPoly_eq : reductionPoly = X ^ 128 + poly reductionConst := by
  rw [poly_reductionConst]
  unfold reductionPoly
  generalize (X : (ZMod 2)[X]) ^ 128 = z
  ring

/-- One step of the shifted operand is multiplication by x modulo the reduction polynomial (R101). -/
theorem poly_shiftReduce (v : Elem) :
    X * poly v = poly (shiftReduce v) + (if v.getLsbD 0 then reductionPoly else 0) := by
  rw [poly_ushiftRight, shiftReduce_eq, poly_xor, reductionPoly_eq]
  cases v.getLsbD 0
  · rw [if_neg Bool.false_ne_true, if_neg Bool.false_ne_true, if_neg Bool.false_ne_true, poly_zero, add_zero, add_zero]
  · rw [if_pos rfl, if_pos rfl, if_pos rfl, add_comm (X ^ 128), ← add_assoc, add_assoc (poly (v >>> 1)),
      CharTwo.add_self_eq_zero, add_zero]
end Sys2Proof.Laws
end

