-- ==== Sys2Proof/Laws/PerInstr.lean ====
section
/-! SUPPORT. Statements made of every command as syntax, one lemma per constructor. -/

namespace Sys2Proof.Laws.FitsFormatC

/-- The command's word is of format C (R70: RSV = 0, OP one of the eight codes), is well formed, decodes, and
its mnemonic names it (R76). -/
def Statement (i : Instr) : Prop :=
  rsvField (encode i) = 0 ∧ wordWellFormed (encode i) = true ∧ decode (encode i) = .command i ∧
    Machine.commandNamed (Machine.mnemonicOf i).toList = some i

theorem nop : Statement .nop := by unfold Statement; decide
theorem gfmul : Statement .gfmul := by unfold Statement; decide
theorem gfsqr : Statement .gfsqr := by unfold Statement; decide
theorem gfexp : Statement .gfexp := by unfold Statement; decide
theorem gford : Statement .gford := by unfold Statement; decide
theorem gfstr : Statement .gfstr := by unfold Statement; decide
theorem gfjdg : Statement .gfjdg := by unfold Statement; decide
theorem selftest : Statement .selftest := by unfold Statement; decide

end Sys2Proof.Laws.FitsFormatC
end

