-- ==== Sys2Proof/Laws/Step.lean ====
section
/-! SUPPORT. What a step can do, said once. -/

namespace Sys2Proof.Laws

open Sys2Proof.Machine

/-- No command stops with a fault or a refusal (R194). -/
theorem exec_next (i : Instr) (s : State) : ∃ t, exec i s = .next t := by
  cases i <;> exact ⟨_, rfl⟩

/-- SELFTEST is refused by an earlier failure, passes, or fails (R154). -/
theorem execSelftest_cases (s : State) :
    execSelftest s = .next (complete .selftest s) ∧ s.stf = true ∨
    execSelftest s = .next (selftestPass s) ∧ s.stf = false ∨
    execSelftest s = .next (selftestFail s) ∧ s.stf = false := by
  cases hf : s.stf with
  | true => exact .inl ⟨by simp [execSelftest, hf], rfl⟩
  | false =>
    by_cases hv : selftestVerdict selftestWeak = false ∧ selftestVerdict selftestSafe = true
    · exact .inr (.inl ⟨by rw [execSelftest, hf, if_neg Bool.false_ne_true, if_pos hv], rfl⟩)
    · exact .inr (.inr ⟨by rw [execSelftest, hf, if_neg Bool.false_ne_true, if_neg hv], rfl⟩)

/-- GFORD is ended by one of its checks, or passes both and writes the order of A (R123). -/
theorem execGford_cases (s : State) :
    (∃ c, c ≠ .ok ∧ execGford s = .next (complete c s)) ∨
    (s.stf = false ∧ s.stp = true ∧ s.a ≠ 0 ∧
      execGford s = .next (complete .ok (setOrder (gfOrder s.a) s))) := by
  unfold execGford operandA
  generalize complete .ok _ = done
  rcases orComplete_cases (verifiedCheck s) s (orComplete (zeroCheck s) s done) with ⟨hv, e⟩ | ⟨hv, e⟩
  · rw [e]
    rcases orComplete_cases (zeroCheck s) s done with ⟨hz, e⟩ | ⟨hz, e⟩
    · have hv := verifiedCheck_eq_ok.mp hv
      exact .inr ⟨hv.1, hv.2, zeroCheck_eq_ok.mp hz, by rw [e]⟩
    · exact .inl ⟨_, hz, by rw [e]⟩
  · exact .inl ⟨_, hv, by rw [e]⟩

/-- GFSTR is ended by one of its checks, or passes both and writes the order of A and its strength (R131). -/
theorem execGfstr_cases (s : State) :
    (∃ c, c ≠ .ok ∧ execGfstr s = .next (complete c s)) ∨
    (s.stf = false ∧ s.stp = true ∧ s.a ≠ 0 ∧
      execGfstr s = .next (complete .ok
        (setStrength (strengthOf (gfOrder s.a)) (setOrder (gfOrder s.a) s)))) := by
  unfold execGfstr operandA
  generalize complete .ok _ = done
  rcases orComplete_cases (verifiedCheck s) s (orComplete (zeroCheck s) s done) with ⟨hv, e⟩ | ⟨hv, e⟩
  · rw [e]
    rcases orComplete_cases (zeroCheck s) s done with ⟨hz, e⟩ | ⟨hz, e⟩
    · have hv := verifiedCheck_eq_ok.mp hv
      exact .inr ⟨hv.1, hv.2, zeroCheck_eq_ok.mp hz, by rw [e]⟩
    · exact .inl ⟨_, hz, by rw [e]⟩
  · exact .inl ⟨_, hv, by rw [e]⟩

/-- GFJDG is ended by one of its checks, or passes all three and writes its three results (R141). -/
theorem execGfjdg_cases (s : State) :
    (∃ c, c ≠ .ok ∧ execGfjdg s = .next (complete c s)) ∨
    (s.stf = false ∧ s.stp = true ∧ 1 ≤ s.thresh.toNat ∧ s.thresh.toNat ≤ 128 ∧ s.a ≠ 0 ∧
      execGfjdg s = .next (complete .ok
        (setVerdict (judge (strengthOf (gfOrder s.a)) (operandT s))
          (setStrength (strengthOf (gfOrder s.a)) (setOrder (gfOrder s.a) s))))) := by
  unfold execGfjdg operandA
  generalize complete .ok _ = done
  rcases orComplete_cases (verifiedCheck s) s
    (orComplete (thresholdCheck s) s (orComplete (zeroCheck s) s done)) with ⟨hv, e⟩ | ⟨hv, e⟩
  · rw [e]
    rcases orComplete_cases (thresholdCheck s) s (orComplete (zeroCheck s) s done) with ⟨ht, e⟩ | ⟨ht, e⟩
    · rw [e]
      rcases orComplete_cases (zeroCheck s) s done with ⟨hz, e⟩ | ⟨hz, e⟩
      · have hv := verifiedCheck_eq_ok.mp hv
        have ht := thresholdCheck_eq_ok.mp ht
        exact .inr ⟨hv.1, hv.2, ht.1, ht.2, zeroCheck_eq_ok.mp hz, by rw [e]⟩
      · exact .inl ⟨_, hz, by rw [e]⟩
    · exact .inl ⟨_, ht, by rw [e]⟩
  · exact .inl ⟨_, hv, by rw [e]⟩

/-- What no command writes (R34, R181), and how every command ends. -/
theorem exec_frame {i : Instr} {s t : State} (h : exec i s = .next t) :
    t.busy = false ∧ t.done = true ∧ t.a = s.a ∧ t.b = s.b ∧ t.e = s.e ∧ t.thresh = s.thresh ∧
    t.ctrlIe = s.ctrlIe ∧ t.cmd = s.cmd ∧ t.werr = s.werr ∧ t.inReset = s.inReset ∧ t.inputs = s.inputs ∧
    t.responses = s.responses := by
  cases i with
  | nop => obtain rfl := Host.Outcome.next.inj h; simp
  | gfmul => obtain rfl := Host.Outcome.next.inj h; simp
  | gfsqr => obtain rfl := Host.Outcome.next.inj h; simp
  | gfexp => obtain rfl := Host.Outcome.next.inj h; simp
  | gford =>
    rcases execGford_cases s with ⟨c, -, hs⟩ | ⟨-, -, -, hs⟩ <;>
      (obtain rfl := Host.Outcome.next.inj (hs.symm.trans h); simp)
  | gfstr =>
    rcases execGfstr_cases s with ⟨c, -, hs⟩ | ⟨-, -, -, hs⟩ <;>
      (obtain rfl := Host.Outcome.next.inj (hs.symm.trans h); simp)
  | gfjdg =>
    rcases execGfjdg_cases s with ⟨c, -, hs⟩ | ⟨-, -, -, -, -, hs⟩ <;>
      (obtain rfl := Host.Outcome.next.inj (hs.symm.trans h); simp)
  | selftest =>
    rcases execSelftest_cases s with ⟨hs, -⟩ | ⟨hs, -⟩ | ⟨hs, -⟩ <;>
      (obtain rfl := Host.Outcome.next.inj (hs.symm.trans h); simp)

theorem step_of_empty {s : State} (h : s.inputs = []) : step s = engineTurn s := by
  simp [step, h]

theorem step_of_cons {s : State} {ev : Event} {rest : List Event} (h : s.inputs = ev :: rest) :
    step s = performEvent ev { s with inputs := rest } := by
  simp [step, h]

/-- The engine's turn: nothing while idle, ERR_ILLEGAL for an ILLEGAL word, else the command (R211). -/
theorem engineTurn_cases (s : State) :
    (s.busy = false ∧ engineTurn s = .next s) ∨
    (s.busy = true ∧ ∃ why, decode s.cmd = .illegal why ∧ engineTurn s = .next (completeIllegal s)) ∨
    (s.busy = true ∧ ∃ i, decode s.cmd = .command i ∧ engineTurn s = exec i s) := by
  unfold engineTurn engineStep fetchWord
  cases hb : s.busy
  · exact .inl ⟨rfl, rfl⟩
  · cases hd : decode s.cmd with
    | illegal why => exact .inr (.inl ⟨rfl, why, rfl, rfl⟩)
    | command i => exact .inr (.inr ⟨rfl, i, rfl, rfl⟩)

/-- What a step can be: a turn of the engine, a host access, or a change of the reset input. -/
theorem step_cases (s : State) :
    (s.inputs = [] ∧ step s = engineTurn s) ∨
    (∃ rest, s.inputs = .engine :: rest ∧ step s = engineTurn { s with inputs := rest }) ∨
    (∃ acc rest, s.inputs = .host acc :: rest ∧ step s = .next (hostAccess acc { s with inputs := rest })) ∨
    (∃ rest, s.inputs = .resetAssert :: rest ∧ step s = .next (assertReset { s with inputs := rest })) ∨
    (∃ rest, s.inputs = .resetRelease :: rest ∧ step s = .next (releaseReset { s with inputs := rest })) := by
  cases h : s.inputs with
  | nil => exact .inl ⟨rfl, step_of_empty h⟩
  | cons ev rest =>
    refine .inr ?_
    cases ev with
    | engine => exact .inl ⟨rest, rfl, step_of_cons h⟩
    | host acc => exact .inr (.inl ⟨acc, rest, rfl, step_of_cons h⟩)
    | resetAssert => exact .inr (.inr (.inl ⟨rest, rfl, step_of_cons h⟩))
    | resetRelease => exact .inr (.inr (.inr ⟨rest, rfl, step_of_cons h⟩))

/-- One step of a run of the host's interface. -/
theorem run_succ_of_next {n : Nat} {s t : State} (h : step s = .next t) :
    Host.Core.run core (n + 1) s = Host.Core.run core n t := by
  simp only [Host.Core.run]
  rw [show core.step s = .next t from h]

end Sys2Proof.Laws
end

