-- ==== Sys2Proof/Tests/Slice0.lean ====
section
/-! SUPPORT. The model's own tests, each one step or one word, with expected values from spec/95_test_vectors.md
and the rules, and one witness for the hypotheses of each statement. -/

namespace Sys2Proof.Tests

open Sys2Proof.Machine Sys2Proof.Safety

/-! ### Helpers -/

/-- A self-test has passed and THRESH.T = t; register A holds x. -/
def ready (x : Elem) (t : BitVec 8) : State := { State.reset with stp := true, a := x, thresh := t }

/-- A command word is pending. -/
def pending (w : Word) (s : State) : State := { s with cmd := w, busy := true }

/-- A state whose next events are given. -/
def upon (evs : List Event) (s : State) : State := { s with inputs := evs }

/-- What a step's next state answers to a question about it; none where there is no next state. -/
def ask {α : Type} (f : State → α) (o : Host.Outcome State Fault Refusal) : Option α :=
  match o with
  | .next s => some (f s)
  | .fault _ => none
  | .refused _ => none

/-- The response to the last access. -/
def lastResponse (s : State) : Option BusResponse := s.responses.getLast?

/-! ### WellFormed smoke: every check refuses an ill-formed term -/

theorem test_wf_word_rsv : wordWellFormed 0x00000010 = false := by decide
theorem test_wf_word_op : wordWellFormed 0x00000008 = false := by decide
theorem test_wf_word_ok : wordWellFormed 0x00000007 = true := by decide
theorem test_wf_access_byte : Access.wellFormed ⟨.bits8, 0x00, .read⟩ = false := by decide
theorem test_wf_access_half : Access.wellFormed ⟨.bits16, 0x00, .read⟩ = false := by decide
theorem test_wf_access_wider : Access.wellFormed ⟨.wider, 0x20, .write 1⟩ = false := by decide
theorem test_wf_access_misaligned : Access.wellFormed ⟨.bits32, 0x02, .read⟩ = false := by decide
theorem test_wf_access_hole : Access.wellFormed ⟨.bits32, 0x1C, .read⟩ = false := by decide
theorem test_wf_access_above : Access.wellFormed ⟨.bits32, 0x70, .write 1⟩ = false := by decide
theorem test_wf_access_ok : Access.wellFormed ⟨.bits32, 0x6C, .read⟩ = true := by decide
theorem test_wf_host_label : hostWellFormed [.ifGoto 0 0 true 3] = false := by decide
theorem test_wf_host_wait : hostWellFormed (waitStmt 0 7) = true := by decide
theorem test_wf_instr : Instr.wellFormed .gfjdg = true := by decide

/-! ### Decoding: the words of R72 written out bit by bit, and the words of 95 section 8 -/

theorem test_decode_nop : decode 0b00000000000000000000000000000000#32 = .command .nop := by decide
theorem test_decode_gfmul : decode 0b00000000000000000000000000000001#32 = .command .gfmul := by decide
theorem test_decode_gfsqr : decode 0b00000000000000000000000000000010#32 = .command .gfsqr := by decide
theorem test_decode_gfexp : decode 0b00000000000000000000000000000011#32 = .command .gfexp := by decide
theorem test_decode_gford : decode 0b00000000000000000000000000000100#32 = .command .gford := by decide
theorem test_decode_gfstr : decode 0b00000000000000000000000000000101#32 = .command .gfstr := by decide
theorem test_decode_gfjdg : decode 0b00000000000000000000000000000110#32 = .command .gfjdg := by decide
theorem test_decode_selftest : decode 0b00000000000000000000000000000111#32 = .command .selftest := by decide
theorem test_decode_reserved_op : decode 0x0000000F#32 = .illegal (.reservedOpcode 0xF) := by decide
theorem test_decode_rsv_nop : decode 0x00000010#32 = .illegal (.reservedBits 1) := by decide
theorem test_decode_rsv_gfmul : decode 0x80000001#32 = .illegal (.reservedBits 0x8000000) := by decide
theorem test_table_word : decodeTableWord 32 7 = some .selftest := by decide
theorem test_table_word_illegal : decodeTableWord 32 8 = none := by decide
theorem test_assemble_small : assemble ['g', 'f', 'J', 'd', 'g'] = some 0x00000006#32 := by decide
theorem test_assemble_unknown : assemble ['G', 'F'] = none := by decide

/-! ### The field commands: rows of 95 sections 2 to 4 -/

theorem test_gfmul_reduces :
    ask State.r (exec .gfmul { State.reset with a := 1, b := 0x40000000000000000000000000000000 })
      = some 0xE1000000000000000000000000000000#128 := by decide +kernel
theorem test_gfmul_row :
    ask State.r (exec .gfmul { State.reset with a := 0x0388DACE60B6A392F328C2B971B2FE78,
                                                b := 0x66E94BD4EF8A2C3B884CFA59CA342B2E })
      = some 0x5E2EC746917062882C85B0685353DEB7#128 := by decide +kernel
theorem test_gfsqr_row :
    ask State.r (exec .gfsqr { State.reset with a := 0x90D04D25F93556E69F58CE2F8D035A94, b := 7 })
      = some 0x10D04D25F93556E69F58CE2F8D035A94#128 := by decide +kernel
theorem test_gfexp_odd :
    ask State.r (exec .gfexp { State.reset with a := 0x66E94BD4EF8A2C3B884CFA59CA342B2E, e := 5 })
      = some 0x9D8A8D8FB196885A3EC22DB185D852AE#128 := by decide +kernel
theorem test_gfexp_zero_to_zero :
    ask State.r (exec .gfexp State.reset) = some 0x80000000000000000000000000000000#128 := by decide +kernel

/-! ### Gates and errors: 95 sections 5, 7 and 8 -/

theorem test_nop_status :
    ask statusWord (step (pending 0 State.reset)) = some 0x00000002#32 := by decide
theorem test_gford_not_verified :
    ask statusWord (step (pending 4 State.reset)) = some 0x00000506#32 := by decide
theorem test_gford_zero :
    ask (fun s => (s.errcode, s.ord)) (exec .gford { ready 0 126 with ord := 9 }) = some (3, 9) := by decide
theorem test_gfstr_not_verified :
    ask statusWord (step (pending 5 State.reset)) = some 0x00000506#32 := by decide
theorem test_gfjdg_threshold_before_zero :
    ask State.errcode (exec .gfjdg (ready 0 0)) = some 2 := by decide
theorem test_gfjdg_threshold_129 :
    ask (fun s => (s.errcode, s.strength)) (exec .gfjdg (ready 1 129)) = some (2, 0) := by decide
theorem test_selftest_sticky :
    ask (fun s => (s.errcode, s.stf, s.stp)) (exec .selftest { State.reset with stf := true })
      = some (4, true, false) := by decide
theorem test_illegal_rsv :
    ask (fun s => (statusWord s, s.r)) (step (pending 0x80000001 State.reset))
      = some (0x00000106, 0) := by decide

/-! ### The register bus: 95 section 8 -/

theorem test_read_id :
    ask lastResponse (step (upon [.host (read32 0x00)] State.reset)) = some (some (.data 0x47463132)) := by decide
theorem test_read_hole :
    ask lastResponse (step (upon [.host (read32 0x1C)] State.reset)) = some (some (.busError 0x1C)) := by decide
theorem test_read_misaligned :
    ask lastResponse (step (upon [.host (read32 0x02)] State.reset)) = some (some (.busError 0x02)) := by decide
theorem test_read_byte :
    ask lastResponse (step (upon [.host ⟨.bits8, 0x00, .read⟩] State.reset))
      = some (some (.busError 0x00)) := by decide
theorem test_write_thresh_low_bits :
    ask (fun s => readReg .thresh s) (step (upon [.host (write32 0x10 0x12345681)] State.reset))
      = some 0x00000081 := by decide
theorem test_write_a0_idle :
    ask State.a (step (upon [.host (write32 0x20 0xDEADBEEF)] { State.reset with a := 5 }))
      = some 0xDEADBEEF000000000000000000000005#128 := by decide
theorem test_write_a0_busy :
    ask (fun s => (s.a, s.werr)) (step (upon [.host (write32 0x20 0xDEADBEEF)] (pending 7 State.reset)))
      = some (0, true) := by decide
theorem test_write_status_ones :
    ask statusWord (step (upon [.host (write32 0x08 0xFFFFFFFF)]
      { State.reset with done := true, werr := true, stp := true, errcode := 2 })) = some 0x0000020C#32 := by decide
theorem test_write_strength_busy :
    ask (fun s => (s.strength, s.werr)) (step (upon [.host (write32 0x14 0xFF)] (pending 7 State.reset)))
      = some (0, false) := by decide
theorem test_reset_while_busy :
    ask (fun s => (s.busy, s.thresh, s.inReset)) (step (upon [.resetAssert] (pending 6 (ready 3 5))))
      = some (false, 126, true) := by decide
theorem test_ack_drops_irq :
    ask irq (step (upon [.host (write32 0x08 0x22)] { State.reset with ctrlIe := true, done := true }))
      = some false := by decide
theorem test_elem_of_bytes :
    elemOfBytes [0x00, 0x11, 0x22, 0x33, 0x44, 0x55, 0x66, 0x77, 0x88, 0x99, 0xAA, 0xBB, 0xCC, 0xDD, 0xEE, 0xFF]
      = some 0x00112233445566778899AABBCCDDEEFF#128 := by decide
theorem test_entry_point_length : evaluateHashkeyStrength [1, 2] = .error .hashKeyLength := by rfl
theorem test_key_length : isKeySafe (fun k => k) [1, 2, 3] = .error .keyLength := by rfl

/-! ### Witnesses: the hypotheses of each statement, met by concrete states and operands -/

/-- 95 section 7: x^3 has strength 126 (the one test that runs the whole order oracle). -/
theorem test_strength_126 : strengthOf (gfOrder 0x10000000000000000000000000000000) = 126 := by decide +kernel
theorem witness_EngineStep :
    EngineIsNext (pending 6 State.reset) [] ∧ (pending 6 State.reset).busy = true ∧
    EngineIsNext (upon [.engine, .resetAssert] (pending 6 State.reset)) [.resetAssert] ∧
    (upon [.engine, .resetAssert] (pending 6 State.reset)).busy = true :=
  ⟨.inl ⟨rfl, rfl⟩, rfl, .inr rfl, rfl⟩
theorem witness_DecodeAgreesWithEncode :
    Instr.wellFormed .selftest = true ∧ decode 7 = .command .selftest ∧ (7 : Word) = encode .selftest := by decide
theorem witness_DecodeFollowsTheOpcodeMap :
    (∀ k : Fin 8, (BitVec.ofNat 32 k.val).toNat = k.val) ∧ 7 < (8 : Word).toNat ∧
    EngineIsNext (pending 7 State.reset) [] ∧ (pending 7 State.reset).busy = true ∧
    decode (pending 7 State.reset).cmd = .command .selftest ∧
    EngineIsNext (pending 8 State.reset) [] ∧ (pending 8 State.reset).busy = true ∧
    decode (pending 8 State.reset).cmd = .illegal (.reservedOpcode 8) :=
  ⟨by decide, by decide, .inl ⟨rfl, rfl⟩, rfl, by decide, .inl ⟨rfl, rfl⟩, rfl, by decide⟩
theorem witness_IllegalWords :
    ((0x10#32).extractLsb' 4 28 ≠ 0 ∧ 8 ≤ ((8#32).extractLsb' 0 4).toNat ∧ 8 ≤ ((15#32).extractLsb' 0 4).toNat) ∧
    (HostIsNext (upon [.host (write32 0x0C 8)] State.reset) (write32 0x0C 8) [] ∧
      (upon [.host (write32 0x0C 8)] State.reset).busy = false) ∧
    (EngineIsNext (pending 8 State.reset) [] ∧ (pending 8 State.reset).busy = true ∧
      (pending 8 State.reset).cmd = 8) :=
  ⟨by decide, ⟨⟨rfl, rfl⟩, rfl⟩, .inl ⟨rfl, rfl⟩, rfl, rfl⟩
theorem witness_StepRunsTheDecodedCommand :
    EngineIsNext (pending 6 State.reset) [] ∧ (pending 6 State.reset).busy = true ∧
    decode (pending 6 State.reset).cmd = .command .gfjdg ∧ Instr.wellFormed .gfjdg = true :=
  ⟨.inl ⟨rfl, rfl⟩, rfl, by decide, rfl⟩
theorem witness_PlacedWord : decodeTableWord 32 0 = some .nop ∧ decodeTableWord 32 6 = some .gfjdg := by decide
theorem witness_WritingCmdWhileIdle :
    HostIsNext (upon [.host (write32 0x0C 6), .engine] { State.reset with errcode := 5, done := true })
      (write32 0x0C 6) [.engine] ∧
    (upon [.host (write32 0x0C 6), .engine] { State.reset with errcode := 5, done := true }).busy = false :=
  ⟨⟨rfl, rfl⟩, rfl⟩
theorem witness_IssuedThen :
    IssuedThen (upon [.host (write32 0x0C 6), .host (write32 0x20 1), .host ⟨.bits8, 1, .read⟩, .engine] State.reset)
      6 [write32 0x20 1, ⟨.bits8, 1, .read⟩] [.engine] := ⟨rfl, rfl, rfl⟩
theorem witness_IssuedThen_decoded :
    decode 6 = .command .gfjdg ∧ decode 8 = .illegal (.reservedOpcode 8) := by decide
theorem witness_WritesWhileBusy :
    (HostIsNext (upon [.host (write32 0x4C 9)] (pending 6 State.reset)) (write32 0x4C 9) [] ∧
      (upon [.host (write32 0x4C 9)] (pending 6 State.reset)).busy = true ∧
      (0x4C : Offset) ∈ idleOnlyOffsets ∧ (0x0C : Offset) ∈ idleOnlyOffsets) ∧
    (HostIsNext (upon [.host (write32 0x6C 9)] (pending 6 State.reset)) (write32 0x6C 9) [] ∧
      (0x6C : Offset) ∈ readOnlyOffsets ∧ (0x00 : Offset) ∈ readOnlyOffsets) ∧
    (HostIsNext (upon [.host (write32 0x08 0)] (pending 6 State.reset)) (write32 0x08 0) [] ∧
      ((0x08 : Offset), upon [.host (write32 0x08 0)] (pending 6 State.reset))
        ∈ anyTimeWriteTable (upon [.host (write32 0x08 0)] (pending 6 State.reset)) 0) :=
  ⟨⟨⟨rfl, rfl⟩, rfl, by decide, by decide⟩, ⟨⟨rfl, rfl⟩, by decide, by decide⟩, ⟨rfl, rfl⟩, by decide⟩
theorem witness_WritesWhileBusy_cleared :
    ask State.werr (step (upon [.host (write32 0x08 0x20)] { State.reset with werr := true })) = some false ∧
    ask State.werr (step (upon [.resetAssert] { State.reset with werr := true })) = some false := by decide
theorem witness_SimultaneousEvents :
    Event.engine ≠ .resetAssert ∧
    (let s := upon [.host (write32 0x08 2), .engine] (pending 0 State.reset)
     s.inReset = false ∧ s.busy = true ∧ (2 : Word).getLsbD 1 = true ∧
       s.inputs = .host (write32 0x08 2) :: .engine :: []) ∧
    (let s := upon [.engine, .host (write32 0x08 2)] (pending 0 State.reset)
     s.inReset = false ∧ s.busy = true ∧ (2 : Word).getLsbD 1 = true ∧
       s.inputs = .engine :: .host (write32 0x08 2) :: []) ∧
    (upon [.resetAssert, .engine] (pending 0 State.reset)).inputs = .resetAssert :: .engine :: [] := by decide
theorem witness_ResetEvents :
    (upon [.resetAssert, .engine] (pending 6 (ready 3 5))).inputs = [.resetAssert, .engine] ∧
    (upon [.resetRelease] { State.reset with inReset := true }).inputs = [.resetRelease] := by decide
theorem witness_AccessDuringReset :
    (upon [.host (read32 0)] { State.reset with inReset := true }).inReset = true ∧
    (upon [.host (read32 0)] { State.reset with inReset := true }).inputs = [.host (read32 0)] := by decide
theorem witness_ResetIssuesNothing :
    (upon [.resetAssert, .resetRelease] (pending 7 State.reset)).inputs
      = .resetAssert :: .resetRelease :: List.replicate 0 .engine ∧
    (upon [.resetAssert, .resetRelease, .engine, .engine] (pending 7 State.reset)).inputs
      = .resetAssert :: .resetRelease :: List.replicate 2 .engine := by decide
theorem witness_ResetRegisters :
    regAt 0x6C = some (.data .ord 3) ∧ offsetOf (.data .ord 3) = 0x6C ∧ regAt 0x1C = none := by decide
theorem witness_StepKeepsTheInvariant :
    BlockInv (pending 6 (ready 3 126)) ∧ ∃ t, step (pending 6 (ready 3 126)) = .next t := by
  refine ⟨?_, Laws.exec_next .gfjdg (pending 6 (ready 3 126))⟩
  constructor <;> simp [pending, ready, State.reset]
theorem witness_IllegalWidthOrAlignment :
    HostIsNext (upon [.host ⟨.bits16, 0, .read⟩] State.reset) ⟨.bits16, 0, .read⟩ [] ∧
    HostIsNext (upon [.host ⟨.bits32, 0xFF, .write 1⟩] State.reset) ⟨.bits32, 0xFF, .write 1⟩ [] ∧
    (0xFF : Offset).toNat % 4 ≠ 0 := ⟨⟨rfl, rfl⟩, ⟨rfl, rfl⟩, by decide⟩
theorem witness_UnmappedOffset :
    (UnmappedOffset 0x1C ∧ HostIsNext (upon [.host (write32 0x1C 1)] State.reset) (write32 0x1C 1) []) ∧
    (UnmappedOffset 0x70 ∧ HostIsNext (upon [.host (read32 0x70)] State.reset) (read32 0x70) []) ∧
    (UnmappedOffset 0xFC ∧ HostIsNext (upon [.host (read32 0xFC)] State.reset) (read32 0xFC) []) :=
  ⟨⟨⟨by decide, by decide⟩, rfl, rfl⟩, ⟨⟨by decide, by decide⟩, rfl, rfl⟩, ⟨⟨by decide, by decide⟩, rfl, rfl⟩⟩
theorem witness_ReadTable :
    (HostIsNext (upon [.host (read32 0x00)] State.reset) (read32 0x00) [] ∧
      ((0x00 : Offset), (0x47463132 : Word)) ∈ busReadTable State.reset) ∧
    (HostIsNext (upon [.host (read32 0x6C)] State.reset) (read32 0x6C) [] ∧
      ((0x6C : Offset), (0 : Word)) ∈ busReadTable State.reset) ∧
    (HostIsNext (upon [.host (read32 0x70)] State.reset) (read32 0x70) [] ∧
      (0x70 : Offset) ∉ (busReadTable State.reset).map Prod.fst) :=
  ⟨⟨⟨rfl, rfl⟩, by decide⟩, ⟨⟨rfl, rfl⟩, by decide⟩, ⟨rfl, rfl⟩, by decide⟩
theorem witness_WriteTable :
    (HostIsNext (upon [.host (write32 0x04 9)] State.reset) (write32 0x04 9) [] ∧
      (0x04 : Offset) ∈ (anyTimeWriteTable State.reset 9).map Prod.fst) ∧
    (HostIsNext (upon [.host (write32 0x4C 9)] State.reset) (write32 0x4C 9) [] ∧
      (0x4C : Offset) ∈ (idleWriteTable State.reset 9).map Prod.fst) ∧
    (HostIsNext (upon [.host (write32 0x6C 9)] State.reset) (write32 0x6C 9) [] ∧
      (0x6C : Offset) ∈ readOnlyOffsets) ∧
    (HostIsNext (upon [.host (write32 0x1C 9)] State.reset) (write32 0x1C 9) [] ∧
      (0x1C : Offset) ∉ readOnlyOffsets ∧ (0x1C : Offset) ∉ idleOnlyOffsets ∧
      (0x1C : Offset) ∉ ([0x04, 0x08] : List Offset)) :=
  ⟨⟨⟨rfl, rfl⟩, by decide⟩, ⟨⟨rfl, rfl⟩, by decide⟩, ⟨⟨rfl, rfl⟩, by decide⟩, ⟨rfl, rfl⟩, by decide⟩
theorem witness_WordLayout :
    HostIsNext (upon [.host (write32 (offsetOf (.data .e 3)) 9)] State.reset)
      (write32 (offsetOf (.data .e 3)) 9) [] ∧
    (upon [.host (write32 (offsetOf (.data .e 3)) 9)] State.reset).busy = false ∧
    elemOfBytes (List.replicate 16 (0xFF : Byte)) = some (BitVec.allOnes 128) := ⟨⟨rfl, rfl⟩, rfl, by decide⟩
theorem witness_Interrupt :
    (EngineIsNext (pending 6 State.reset) [] ∧ (pending 6 State.reset).busy = true) ∧
    ask State.done (step (upon [.host (write32 0x08 2)] { State.reset with done := true })) = some false ∧
    ask State.done (step (upon [.host (write32 0x0C 0)] { State.reset with done := true })) = some false ∧
    ask State.done (step (upon [.resetAssert] { State.reset with done := true })) = some false ∧
    HostIsNext (upon [.host (write32 0x04 1)] State.reset) (write32 0x04 1) [] :=
  ⟨⟨.inl ⟨rfl, rfl⟩, rfl⟩, by decide, by decide, by decide, rfl, rfl⟩
theorem witness_Repeated :
    State.reset.inReset = false ∧ State.reset.busy = false ∧ RegWord.thresh ≠ .cmd := by decide
theorem witness_Window : Config.gfBase + 0xFF < Config.gfBase + 0x100 := by omega
theorem witness_Ld128 :
    (upon (hostEvents (ld128 .a 5) ++ [.engine]) State.reset).inputs = hostEvents (ld128 .a 5) ++ [.engine] ∧
    (upon (hostEvents (ld128 .e 5) ++ []) State.reset).inputs = hostEvents (ld128 .e 5) ++ [] ∧
    (upon (hostEvents (ld128 .b 5) ++ []) State.reset).busy = false := by decide
theorem witness_EachWordRead :
    (∃ u, engineStep (upon (.engine :: hostEvents (rd128 .r 0)) (pending 0 State.reset)) = .next u) ∧
    (let s := upon ((hostEvents (rd128 .r 0)).take 0 ++ .engine :: ((hostEvents (rd128 .r 0)).drop 0 ++ []))
      (pending 0 State.reset)
     s.inReset = false ∧ s.busy = true ∧ s.inputs = .engine :: hostEvents (rd128 .r 0)) ∧
    (let s := upon ((hostEvents (rd128 .r 0)).take 4 ++ .engine :: ((hostEvents (rd128 .r 0)).drop 4 ++ []))
      (pending 0 State.reset)
     s.inReset = false ∧ s.busy = true ∧ s.inputs = hostEvents (rd128 .r 0) ++ [.engine]) :=
  ⟨⟨_, rfl⟩, ⟨rfl, rfl, rfl⟩, rfl, rfl, rfl⟩
theorem witness_ByteStrings :
    (List.replicate 16 (0xFF : Byte)).length = 16 ∧
    elemOfBytes (List.replicate 16 (0xFF : Byte)) = some (BitVec.allOnes 128) := by decide
theorem witness_ErrorsArePrecise :
    ask State.errcode (Host.Core.run Sys2Proof.core 2 (upon [.host (write32 0x0C 4), .engine] State.reset)) = some 5
      ∧ IssuedThen (upon [.host (write32 0x0C 4), .engine] State.reset) 4 [] [.engine] ∧
      decode 4 ≠ .command .selftest := ⟨by decide, ⟨rfl, rfl, rfl⟩, by decide⟩
theorem witness_ErrorPriority :
    EngineIsNext (pending 15 State.reset) [] ∧ (pending 15 State.reset).busy = true ∧
    decode (pending 15 State.reset).cmd = .illegal (.reservedOpcode 15) ∧
    { State.reset with stf := true }.stf = true := ⟨.inl ⟨rfl, rfl⟩, rfl, by decide, rfl⟩
theorem witness_ResultsDependOnlyOnNamedOperands :
    (∃ t, exec .gfjdg (ready 3 126) = .next t) ∧ (∃ t, exec .gfjdg { ready 3 126 with b := 4 } = .next t) ∧
    (ready 3 126).a = { ready 3 126 with b := 4 }.a ∧ (ready 3 126).stp = { ready 3 126 with b := 4 }.stp ∧
    (ready 3 126).stf = { ready 3 126 with b := 4 }.stf ∧ (ready 3 126).b ≠ { ready 3 126 with b := 4 }.b :=
  ⟨⟨_, rfl⟩, ⟨_, rfl⟩, rfl, rfl, rfl, by decide⟩
theorem witness_GfmulCorners :
    { State.reset with a := 5, b := 5 }.a = { State.reset with a := 5, b := 5 }.b ∧
    { State.reset with a := 0, b := 5 }.a = 0 ∧ { State.reset with a := gfOne, b := 5 }.a = gfOne := by decide
theorem witness_GfexpCorners :
    State.reset.e = 0 ∧ State.reset.a = 0 ∧ { State.reset with e := 1 }.e ≠ 0 := by decide
theorem witness_GfexpToTheGroupOrder :
    { ready 2 126 with e := 0xFFFFFFFFFFFFFFFFFFFFFFFFFFFFFFFF }.a ≠ 0 ∧
    { ready 2 126 with e := 0xFFFFFFFFFFFFFFFFFFFFFFFFFFFFFFFF }.e = 0xFFFFFFFFFFFFFFFFFFFFFFFFFFFFFFFF := by
  decide
theorem witness_verified : verified (ready gfOne 126) ∧ (ready gfOne 126).a ≠ 0 ∧ (ready gfOne 126).a = gfOne := by
  unfold verified; decide
theorem witness_gated_errors :
    { State.reset with stf := true }.stf = true ∧ (State.reset.stf = false ∧ State.reset.stp = false) ∧
    (verified (ready 0 126) ∧ (ready 0 126).a = 0) := ⟨rfl, ⟨rfl, rfl⟩, ⟨rfl, rfl⟩, rfl⟩
theorem witness_OrderDivides : (0x40000000000000000000000000000000 : Elem) ≠ 0 := by decide
theorem witness_FactorOrder :
    [67280421310721, 6700417, 274177, 65537, 641, 257, 17, 5, 3].Perm
      [3, 5, 17, 257, 641, 65537, 274177, 6700417, 67280421310721] := by decide
theorem witness_StrengthIsFloorLog2 :
    (1 : Nat) ≤ 2 ^ 128 - 1 ∧ (0x10000000000000000000000000000000 : Elem) ≠ 0 ∧
    126 ≤ strengthOf (gfOrder 0x10000000000000000000000000000000) :=
  ⟨by decide, by decide, by rw [test_strength_126]⟩
theorem witness_GfjdgResult :
    (verified (ready gfOne 1) ∧ (ready gfOne 1).a ≠ 0 ∧ 1 ≤ (ready gfOne 1).thresh.toNat ∧
      (ready gfOne 1).thresh.toNat ≤ 128) ∧
    (verified (ready gfOne 128) ∧ (ready gfOne 128).a ≠ 0 ∧ 1 ≤ (ready gfOne 128).thresh.toNat ∧
      (ready gfOne 128).thresh.toNat ≤ 128) := by unfold verified; decide
theorem witness_ThresholdIsChecked :
    (verified (ready 0 0) ∧ (ready 0 0).thresh.toNat = 0) ∧
    (verified (ready 0 129) ∧ 129 ≤ (ready 0 129).thresh.toNat) ∧
    (verified (ready 0 255) ∧ 129 ≤ (ready 0 255).thresh.toNat) ∧
    (verified (ready gfOne 128) ∧ (ready gfOne 128).a ≠ 0 ∧ (ready gfOne 128).thresh.toNat = 128) := by
  unfold verified; decide
theorem witness_ThresholdBoundary :
    verified (ready 0x10000000000000000000000000000000 126) ∧
    (ready 0x10000000000000000000000000000000 126).a ≠ 0 ∧
    strengthOf (gfOrder (ready 0x10000000000000000000000000000000 126).a) = 126 ∧
    (ready 0x10000000000000000000000000000000 127).thresh = 127 :=
  ⟨⟨rfl, rfl⟩, by decide, test_strength_126, rfl⟩
theorem witness_ThresholdIsChecked_monotonic : (93 : Nat) ≤ 127 ∧ (93 : Nat) ≤ 93 ∧ judge 93 93 = true := by decide
theorem witness_Selftest :
    State.reset.stf = false ∧
    (let s := upon [.host (read32 0)] { State.reset with stf := true }
     s.stf = true ∧ (∃ t, step s = .next t) ∧ ∀ rest, s.inputs ≠ .resetAssert :: rest) :=
  ⟨rfl, rfl, ⟨_, rfl⟩, by simp [upon]⟩
theorem witness_StfIsNeverSet :
    (pending 7 State.reset).stf = false ∧ ∃ t, step (pending 7 State.reset) = .next t :=
  ⟨rfl, Laws.exec_next .selftest (pending 7 State.reset)⟩
end Sys2Proof.Tests
end

section
/-! PROOFS. The byte reading of an element (00_scope.md R18): `bigEndian` is determined by what a last byte adds
to it (`bigEndian_concat`), and everything else is an induction along that equation. -/

namespace Sys2Proof.Proofs

open Sys2Proof.Machine

/-! ### The big-endian integer of a byte string -/

@[simp] theorem bigEndian_nil : bigEndian [] = 0 := rfl

@[simp] theorem bigEndian_concat (b : List Byte) (y : Byte) :
    bigEndian (b ++ [y]) = 256 * bigEndian b + y.toNat := by
  simp [bigEndian]

theorem bigEndian_lt (b : List Byte) : bigEndian b < 256 ^ b.length := by
  induction b using List.reverseRecOn with
  | nil => simp
  | append_singleton b y ih =>
    have hy := y.isLt
    simp only [bigEndian_concat, List.length_append, List.length_singleton, pow_succ]
    omega

theorem bigEndian_eq_sum (b : List Byte) :
    bigEndian b =
      ∑ k ∈ Finset.range b.length, (b.getD k 0).toNat * 2 ^ (8 * (b.length - 1 - k)) := by
  induction b using List.reverseRecOn with
  | nil => simp
  | append_singleton b y ih =>
    have earlier : ∀ k ∈ Finset.range b.length,
        ((b ++ [y]).getD k 0).toNat * 2 ^ (8 * (b.length - k)) =
          256 * ((b.getD k 0).toNat * 2 ^ (8 * (b.length - 1 - k))) := by
      intro k hk
      have hk : k < b.length := Finset.mem_range.mp hk
      have hexp : 8 * (b.length - k) = 8 * (b.length - 1 - k) + 8 := by omega
      rw [List.getD_append _ _ _ _ hk, hexp, pow_add]
      ring
    have last : ((b ++ [y]).getD b.length 0).toNat * 2 ^ (8 * (b.length - b.length)) = y.toNat := by simp
    rw [List.length_append, List.length_singleton, Nat.add_sub_cancel, Finset.sum_range_succ, last,
      Finset.sum_congr rfl earlier, ← Finset.mul_sum, ← ih, bigEndian_concat]

/-- Byte k of the string is the base-256 digit k places from the top. -/
theorem bigEndian_digit (b : List Byte) (k : Nat) (hk : k < b.length) :
    bigEndian b / 2 ^ (8 * (b.length - 1 - k)) % 256 = b[k].toNat := by
  induction b using List.reverseRecOn with
  | nil => simp at hk
  | append_singleton b y ih =>
    have hy := y.isLt
    rcases Nat.lt_or_ge k b.length with hlt | hge
    · have hexp : 8 * ((b ++ [y]).length - 1 - k) = 8 + 8 * (b.length - 1 - k) := by simp; omega
      have hdrop : (256 * bigEndian b + y.toNat) / 2 ^ 8 = bigEndian b := by omega
      rw [hexp, pow_add, bigEndian_concat, ← Nat.div_div_eq_div_mul, hdrop, ih hlt,
        List.getElem_append_left hlt]
    · obtain rfl : k = b.length := by simp at hk; omega
      simp
      omega

/-! ### The bytes of an element -/

@[simp] theorem bytesOfElem_length (x : Elem) : (bytesOfElem x).length = 16 := by simp [bytesOfElem]

theorem bytesOfElem_getElem (x : Elem) (k : Nat) (hk : k < (bytesOfElem x).length) :
    (bytesOfElem x)[k] = x.extractLsb' (120 - 8 * k) 8 := by simp [bytesOfElem]

/-- The first n of the 16 bytes are the element without its low 16 − n bytes. -/
theorem bigEndian_firstBytes (x : Elem) (n : Nat) (hn : n ≤ 16) :
    bigEndian ((List.range n).map fun k => x.extractLsb' (120 - 8 * k) 8) =
      x.toNat / 2 ^ (8 * (16 - n)) := by
  induction n with
  | zero => simp [Nat.div_eq_of_lt x.isLt]
  | succ n ih =>
    have hexp : 8 * (16 - n) = (120 - 8 * n) + 8 := by omega
    have hexp' : 8 * (16 - (n + 1)) = 120 - 8 * n := by omega
    rw [List.range_succ, List.map_append, List.map_singleton, bigEndian_concat, ih (by omega), hexp,
      hexp', pow_add, ← Nat.div_div_eq_div_mul, BitVec.extractLsb'_toNat, Nat.shiftRight_eq_div_pow]
    exact Nat.div_add_mod _ 256

theorem bigEndian_bytesOfElem (x : Elem) : bigEndian (bytesOfElem x) = x.toNat :=
  (bigEndian_firstBytes x 16 le_rfl).trans (Nat.div_one _)

/-! ### The element of a byte string -/

theorem elemOfBytes_eq_some_iff (b : List Byte) (x : Elem) :
    elemOfBytes b = some x ↔ b.length = 16 ∧ x.toNat = bigEndian b := by
  unfold elemOfBytes
  split
  next hlen =>
    have hlt : bigEndian b < 2 ^ 128 := by simpa [hlen] using bigEndian_lt b
    rw [Option.some_inj, ← BitVec.toNat_inj, BitVec.toNat_ofNat, Nat.mod_eq_of_lt hlt, eq_comm,
      and_iff_right hlen]
  next hlen => simp [hlen]

theorem elemOfBytes_bytesOfElem (x : Elem) : elemOfBytes (bytesOfElem x) = some x :=
  (elemOfBytes_eq_some_iff _ x).mpr ⟨bytesOfElem_length x, (bigEndian_bytesOfElem x).symm⟩

theorem bytesOfElem_of_elemOfBytes {b : List Byte} {x : Elem} (h : elemOfBytes b = some x) :
    bytesOfElem x = b := by
  obtain ⟨hlen, hx⟩ := (elemOfBytes_eq_some_iff b x).mp h
  refine List.ext_getElem (by simp [hlen]) fun k hk hkb => BitVec.eq_of_toNat_eq ?_
  have hexp : 120 - 8 * k = 8 * (b.length - 1 - k) := by omega
  rw [bytesOfElem_getElem, BitVec.extractLsb'_toNat, Nat.shiftRight_eq_div_pow, hx, hexp]
  exact bigEndian_digit b k hkb

theorem topBit_of_elemOfBytes {b : List Byte} {x : Elem} (h : elemOfBytes b = some x) :
    x.getLsbD 127 = (b.getD 0 0).getLsbD 7 := by
  rw [← bytesOfElem_of_elemOfBytes h, List.getD_eq_getElem _ _ (by simp), bytesOfElem_getElem]
  simp

/-- Settles O34: the sum is `bigEndian_eq_sum`; the rest reads `elemOfBytes` through `elemOfBytes_eq_some_iff`. -/
theorem byteStringsReadBigEndian : Obligations.ByteStringsReadBigEndian := by
  refine ⟨fun b hlen => ?_, fun _ _ => topBit_of_elemOfBytes, elemOfBytes_bytesOfElem,
    fun _ _ => bytesOfElem_of_elemOfBytes⟩
  rw [elemOfBytes, if_pos hlen, bigEndian_eq_sum, hlen]

end Sys2Proof.Proofs
end

section
/-! PROOFS. The register state (10_state.md): the two bits `irq` is made of, the word layout of the 128-bit
registers (R24), what a legal write of a mapped word makes of a step, and which command writes which register
(R34). -/

namespace Sys2Proof.Proofs

open Sys2Proof.Machine Sys2Proof.Safety Sys2Proof.Laws

/-! ### ID, CTRL and STATUS as words -/

/-- Settles O27: no arm of the register map that concerns ID mentions the state. -/
theorem idIsConstant : Obligations.IdIsConstant :=
  ⟨by decide, fun _ _ => rfl, fun _ => rfl, fun _ => (by decide : idWord.extractLsb' 24 8 = 0x47#8)⟩

@[simp] theorem bitWord_getElem (b : Bool) (i : Nat) (hi : i < 32) : (bitWord b)[i] = (b && decide (i = 0)) := by
  cases b <;> simp [bitWord]

/-- Settles O28: CTRL.IE is bit 0 of the CTRL word and DONE is bit 1 of the STATUS word. -/
theorem irqIsEnableAndDone : Obligations.IrqIsEnableAndDone := by
  intro s
  have enable : (readReg .ctrl s).getLsbD 0 = s.ctrlIe := by simp [readReg]
  have pending : (readReg .status s).getLsbD 1 = s.done := by simp [readReg, statusWord]
  rw [enable, pending, irq]

/-! ### The words of a 128-bit register -/

theorem offsetOf_data_toNat (x : Reg128) (j : Fin 4) : (offsetOf (.data x j)).toNat = regBase x + 4 * j.val := by
  have hbase : regBase x ≤ 0x60 := by cases x <;> decide
  exact Nat.mod_eq_of_lt (by omega)

/-- The four words, most significant first, make the value (R24). -/
theorem joinWords_getWord (x : Elem) :
    joinWords (getWord x 0) (getWord x 1) (getWord x 2) (getWord x 3) = x := by
  unfold joinWords getWord
  iterate 3 rw [BitVec.extractLsb'_append_extractLsb'_eq_extractLsb' (by decide)]
  exact BitVec.extractLsb'_eq_self

theorem bytesOfElem_getD (x : Elem) {k : Nat} (hk : k < 16) :
    (bytesOfElem x).getD k 0 = x.extractLsb' (120 - 8 * k) 8 := by
  rw [List.getD_eq_getElem _ _ (by simpa using hk), bytesOfElem_getElem]

/-- Word j of an element is its bytes 4j to 4j + 3 (R24). -/
theorem getWord_eq_bytes (x : Elem) (j : Fin 4) :
    getWord x j = (bytesOfElem x).getD (4 * j.val) 0 ++ (bytesOfElem x).getD (4 * j.val + 1) 0
      ++ (bytesOfElem x).getD (4 * j.val + 2) 0 ++ (bytesOfElem x).getD (4 * j.val + 3) 0 := by
  have hlow : wordShift j = 120 - 8 * (4 * j.val + 3) := by unfold wordShift; omega
  iterate 4 rw [bytesOfElem_getD x (by omega)]
  iterate 3 rw [BitVec.extractLsb'_append_extractLsb'_eq_extractLsb' (by omega)]
  rw [getWord, hlow]

/-! ### A legal write of a mapped word -/

theorem step_write32 {s : State} {w : RegWord} {v : Word} {rest : List Event}
    (h : HostIsNext s (write32 (offsetOf w) v) rest) :
    step s = .next (respond .ok (writeReg w v { s with inputs := rest })) := by
  obtain ⟨hreset, hinputs⟩ := h
  have haccess := hostAccess_mapped (s := { s with inputs := rest }) hreset (regAt_offsetOf w) (.write v)
  rw [step_of_cons hinputs]
  exact congrArg Host.Outcome.next haccess

/-- In an idle block a write to a word of A, B or E is the model's `setWord` on that register and leaves the
other data registers as they are. -/
theorem readReg128_writeData {x : Reg128} (hx : x = .a ∨ x = .b ∨ x = .e) (y : Reg128) (j : Fin 4) (v : Word)
    {s : State} (hidle : s.busy = false) :
    readReg128 y (writeData x j v s) = if y = x then setWord (readReg128 x s) j v else readReg128 y s := by
  rcases hx with rfl | rfl | rfl <;> cases y <;> simp [writeData, whenIdle, hidle, readReg128]

theorem step_writeData {s : State} {x : Reg128} {j : Fin 4} {v : Word} {rest : List Event}
    (h : HostIsNext s (write32 (offsetOf (.data x j)) v) rest) (hidle : s.busy = false)
    (hx : x = .a ∨ x = .b ∨ x = .e) :
    ∃ t, step s = .next t ∧ ∀ y, readReg128 y t = if y = x then setWord (readReg128 x s) j v else readReg128 y s :=
  ⟨_, step_write32 h, fun y => readReg128_writeData (s := { s with inputs := rest }) hx y j v hidle⟩

/-- Settles O26: each part is one of the lemmas above, the bits of a word write `setWord_getLsbD`. -/
theorem wordLayoutOfTheDataRegisters : Obligations.WordLayoutOfTheDataRegisters := by
  refine ⟨fun x j => ?offsets, fun x s => joinWords_getWord (readReg128 x s), fun b x j hb => ?bytes,
    fun x j v i hi => ?bits, fun s x j v rest hnext hidle hx => ?write⟩
  case offsets => simp [offsetOf_data_toNat]
  case bytes => rw [getWord_eq_bytes, bytesOfElem_of_elemOfBytes hb]
  case bits =>
    have htop : wordShift j + 32 = 128 - 32 * j.val := by unfold wordShift; omega
    rw [setWord_getLsbD x j v i hi, htop, wordShift]
  case write =>
    obtain ⟨t, hstep, hread⟩ := step_writeData hnext hidle hx
    exact ⟨t, hstep, (hread x).trans (if_pos rfl), fun y hy => (hread y).trans (if_neg hy)⟩

/-! ### Which command writes which register -/

/-- Every command either ends with a code and writes nothing else, or writes registers R34 gives it; only a failed
self-test writes registers and ends with a nonzero code. -/
theorem exec_writes {i : Instr} {s t : State} (h : exec i s = .next t) :
    (∃ c, t = complete c s) ∨
    ((i = .gfmul ∨ i = .gfsqr ∨ i = .gfexp) ∧ ∃ x, t = finishField x s) ∨
    (i = .gford ∧ ∃ o, t = complete .ok (setOrder o s)) ∨
    (i = .gfstr ∧ ∃ n o, t = complete .ok (setStrength n (setOrder o s))) ∨
    (i = .gfjdg ∧ ∃ v n o, t = complete .ok (setVerdict v (setStrength n (setOrder o s)))) ∨
    (i = .selftest ∧ (t = selftestPass s ∨ t = selftestFail s)) := by
  have answer {u : State} (hu : exec i s = .next u) : t = u := Host.Outcome.next.inj (h.symm.trans hu)
  cases i with
  | nop => exact .inl ⟨.ok, answer rfl⟩
  | gfmul => exact .inr (.inl ⟨by simp, _, answer rfl⟩)
  | gfsqr => exact .inr (.inl ⟨by simp, _, answer rfl⟩)
  | gfexp => exact .inr (.inl ⟨by simp, _, answer rfl⟩)
  | gford =>
    rcases execGford_cases s with ⟨c, -, hs⟩ | ⟨-, -, -, hs⟩
    · exact .inl ⟨c, answer hs⟩
    · exact .inr (.inr (.inl ⟨rfl, _, answer hs⟩))
  | gfstr =>
    rcases execGfstr_cases s with ⟨c, -, hs⟩ | ⟨-, -, -, hs⟩
    · exact .inl ⟨c, answer hs⟩
    · exact .inr (.inr (.inr (.inl ⟨rfl, _, _, answer hs⟩)))
  | gfjdg =>
    rcases execGfjdg_cases s with ⟨c, -, hs⟩ | ⟨-, -, -, -, -, hs⟩
    · exact .inl ⟨c, answer hs⟩
    · exact .inr (.inr (.inr (.inr (.inl ⟨rfl, _, _, _, answer hs⟩))))
  | selftest =>
    rcases execSelftest_cases s with ⟨hs, -⟩ | ⟨hs, -⟩ | ⟨hs, -⟩
    · exact .inl ⟨_, answer hs⟩
    · exact .inr (.inr (.inr (.inr (.inr ⟨rfl, .inl (answer hs)⟩))))
    · exact .inr (.inr (.inr (.inr (.inr ⟨rfl, .inr (answer hs)⟩))))

/-- The columns of R34's table for the registers a command can write: each is kept by the commands it does not
list. -/
theorem exec_keeps_unlisted {i : Instr} {s t : State} (h : exec i s = .next t) :
    (i ≠ .gfmul ∧ i ≠ .gfsqr ∧ i ≠ .gfexp → t.r = s.r) ∧
    (i ≠ .gford ∧ i ≠ .gfstr ∧ i ≠ .gfjdg → t.ord = s.ord) ∧
    (i ≠ .gfstr ∧ i ≠ .gfjdg → t.strength = s.strength) ∧
    (i ≠ .gfjdg → t.safe = s.safe) ∧
    (i ≠ .selftest → t.stp = s.stp ∧ t.stf = s.stf) := by
  rcases exec_writes h with ⟨c, rfl⟩ | ⟨hi, x, rfl⟩ | ⟨rfl, o, rfl⟩ | ⟨rfl, n, o, rfl⟩ |
    ⟨rfl, v, n, o, rfl⟩ | ⟨rfl, rfl | rfl⟩
  · simp
  · rcases hi with rfl | rfl | rfl <;> simp
  · simp
  · simp
  · simp
  · simp
  · simp

/-- A command that ends with a nonzero code keeps all four results (R34, R184). -/
theorem exec_error_keeps_results {i : Instr} {s t : State} (h : exec i s = .next t) (herr : t.errcode ≠ 0) :
    t.r = s.r ∧ t.ord = s.ord ∧ t.strength = s.strength ∧ t.safe = s.safe := by
  rcases exec_writes h with ⟨c, rfl⟩ | ⟨-, x, rfl⟩ | ⟨-, o, rfl⟩ | ⟨-, n, o, rfl⟩ |
    ⟨-, v, n, o, rfl⟩ | ⟨-, rfl | rfl⟩
  · simp
  · exact absurd rfl herr
  · exact absurd rfl herr
  · exact absurd rfl herr
  · exact absurd rfl herr
  · simp
  · simp

/-- Settles O35: the frame every command has, the rows of the table, and what an error keeps. -/
theorem commandsWriteOnlyTheirRegisters : Obligations.CommandsWriteOnlyTheirRegisters := by
  intro i s
  obtain ⟨t, h⟩ := exec_next i s
  obtain ⟨hbusy, hdone, ha, hb, he, hthresh, hie, hcmd, hwerr, hreset, hinputs, hresponses⟩ := exec_frame h
  obtain ⟨hr, hord, hstrength, hsafe, hselftest⟩ := exec_keeps_unlisted h
  exact ⟨t, h, hbusy, hdone, ha, hb, he, hthresh, hie, hcmd, hwerr, hreset, hinputs, hresponses, rfl,
    hr, hord, hstrength, hsafe, hselftest, exec_error_keeps_results h⟩

end Sys2Proof.Proofs
end

section
/-! PROOFS. The register bus (20_memory.md): a host access, out of reset, is one of three steps (a bus error, a read,
a write), the tables of R54 and R55 are the model's register map read word by word, and between an issue and its
completion no access changes what the engine works on. -/

namespace Sys2Proof.Proofs

open Sys2Proof.Machine Sys2Proof.Safety Sys2Proof.Laws

/-! ### The window -/

/-- Settles O31: GF_BASE is 256 pages' worth, and `windowOffset` subtracts it. -/
theorem windowIsThe256BytesAtGfBase : Obligations.WindowIsThe256BytesAtGfBase := by
  refine ⟨Nat.mul_mod_right 256 _, fun off => ?inside, fun addr width op hout => ?outside⟩
  case inside =>
    have hoff : off.toNat < 256 := off.isLt
    rw [windowOffset, if_pos (by omega), Nat.add_sub_cancel_left, BitVec.ofNat_toNat, BitVec.setWidth_eq]
  case outside =>
    rw [eventAt, windowOffset, if_neg (by omega), Option.map_none]

/-! ### The address map -/

/-- The words of a 128-bit register, word 0 first. -/
def wordsOf (x : Reg128) : List RegWord := [.data x 0, .data x 1, .data x 2, .data x 3]

/-- The words taken at any time (R55). -/
def anyTimeWords : List RegWord := [.ctrl, .status]

/-- The words taken only while idle (R55, R214). -/
def idleOnlyWords : List RegWord := [.cmd, .thresh] ++ wordsOf .a ++ wordsOf .b ++ wordsOf .e

/-- The words of the read-only registers (R55). -/
def readOnlyWords : List RegWord := [.id, .strength, .verdict] ++ wordsOf .r ++ wordsOf .ord

/-- All words of the window, in the order of R20. -/
def mappedWords : List RegWord :=
  [.id, .ctrl, .status, .cmd, .thresh, .strength, .verdict]
    ++ wordsOf .a ++ wordsOf .b ++ wordsOf .e ++ wordsOf .r ++ wordsOf .ord

theorem data_mem_wordsOf (x : Reg128) (j : Fin 4) : .data x j ∈ wordsOf x := by
  fin_cases j <;> simp [wordsOf]

theorem mem_mappedWords (w : RegWord) : w ∈ mappedWords := by
  cases w with
  | data x j =>
    have hmem := data_mem_wordsOf x j
    cases x <;> simp [mappedWords, hmem]
  | _ => simp [mappedWords]

theorem mem_anyTime_or_idleOnly_or_readOnly (w : RegWord) :
    w ∈ anyTimeWords ∨ w ∈ idleOnlyWords ∨ w ∈ readOnlyWords := by
  cases w with
  | data x j =>
    have hmem := data_mem_wordsOf x j
    cases x <;> simp [idleOnlyWords, readOnlyWords, hmem]
  | _ => simp [anyTimeWords, idleOnlyWords, readOnlyWords]

theorem idleOnlyOffsets_eq : idleOnlyOffsets = idleOnlyWords.map offsetOf := rfl

theorem readOnlyOffsets_eq : readOnlyOffsets = readOnlyWords.map offsetOf := rfl

theorem regAt_eq_some_iff {off : Offset} {w : RegWord} : regAt off = some w ↔ off = offsetOf w := by
  constructor
  · intro h
    unfold regAt at h
    split at h <;> cases h <;> exact BitVec.eq_of_toNat_eq ‹_›
  · rintro rfl
    exact regAt_offsetOf w

theorem regAt_eq_none_of_ne {off : Offset} (h : ∀ w, off ≠ offsetOf w) : regAt off = none :=
  Option.eq_none_iff_forall_ne_some.mpr fun w hw => h w (regAt_eq_some_iff.mp hw)

theorem offsetOf_mapped (w : RegWord) : (offsetOf w).toNat < 0x70 ∧ (offsetOf w).toNat ≠ 0x1C := by
  cases w with
  | data x j =>
    have hbase : 0x20 ≤ regBase x ∧ regBase x ≤ 0x60 := by cases x <;> decide
    have hoff := offsetOf_data_toNat x j
    omega
  | _ => decide

theorem regAt_of_unmapped {off : Offset} (h : UnmappedOffset off) : regAt off = none := by
  refine regAt_eq_none_of_ne fun w hw => ?_
  obtain ⟨-, h⟩ := h
  have hmapped := offsetOf_mapped w
  rw [← hw] at hmapped
  omega

/-! ### The step of a host access -/

theorem step_host {s : State} {acc : Access} {rest : List Event} (h : HostIsNext s acc rest) :
    step s = .next (busAccess acc { s with inputs := rest }) := by
  obtain ⟨hreset, hinputs⟩ := h
  have hout : ({ s with inputs := rest } : State).inReset = false := hreset
  rw [step_of_cons hinputs, performEvent, hostAccess, hout, if_neg Bool.false_ne_true]

theorem step_illegal {s : State} {acc : Access} {rest : List Event} (h : HostIsNext s acc rest)
    (hacc : acc.width ≠ .bits32 ∨ acc.off.toNat % 4 ≠ 0) :
    step s = .next (answered (.busError acc.off) rest s) :=
  (step_host h).trans (congrArg _ (busAccess_illegal hacc _))

theorem step_unmapped {s : State} {acc : Access} {rest : List Event} (h : HostIsNext s acc rest)
    (hacc : regAt acc.off = none) : step s = .next (answered (.busError acc.off) rest s) :=
  (step_host h).trans (congrArg _ (busAccess_unmapped hacc _))

/-- No read looks at the model's own fields. -/
theorem readReg_inputs (w : RegWord) (s : State) (rest : List Event) :
    readReg w { s with inputs := rest } = readReg w s := by
  cases w with
  | data x j => cases x <;> rfl
  | _ => rfl

theorem step_read32 {s : State} {w : RegWord} {rest : List Event}
    (h : HostIsNext s (read32 (offsetOf w)) rest) :
    step s = .next (answered (.data (readReg w s)) rest s) := by
  rw [step_host h, read32, busAccess_mapped (regAt_offsetOf w), accessReg, readReg_inputs]
  rfl

/-- No write looks at the schedule or at the earlier responses, or changes them. -/
theorem writeReg_schedule (w : RegWord) (v : Word) (s : State) (rest : List Event) (resps : List BusResponse) :
    writeReg w v { s with inputs := rest, responses := resps } =
      { writeReg w v s with inputs := rest, responses := resps } := by
  cases w with
  | data x j => cases x <;> cases hb : s.busy <;> simp [writeReg, writeData, whenIdle, hb]
  | _ => cases hb : s.busy <;> simp [writeReg, writeStatus, whenIdle, issue, hb]

theorem step_write32_answered {s : State} {w : RegWord} {v : Word} {rest : List Event}
    (h : HostIsNext s (write32 (offsetOf w) v) rest) :
    step s = .next (answered .ok rest (writeReg w v s)) := by
  obtain ⟨-, -, -, -, -, -, -, -, hresponses⟩ := writeReg_frame w v s
  have hwrite : writeReg w v { s with inputs := rest } =
      { writeReg w v s with inputs := rest, responses := s.responses } := writeReg_schedule w v s rest s.responses
  rw [step_write32 h, hwrite, answered, hresponses]
  rfl

/-! ### Bus errors -/

/-- Settles O22: only 32-bit aligned accesses are legal. -/
theorem illegalWidthOrAlignmentIsABusError : Obligations.IllegalWidthOrAlignmentIsABusError := by
  intro s acc rest hnext hacc
  refine step_illegal hnext ?_
  rcases hacc with hw | hw | hw | hmis
  · exact .inl (by simp [hw])
  · exact .inl (by simp [hw])
  · exact .inl (by simp [hw])
  · exact .inr hmis

/-- Settles O23: no register word stands at such an offset (`regAt_of_unmapped`). -/
theorem unmappedOffsetIsABusError : Obligations.UnmappedOffsetIsABusError := by
  intro s off v rest hoff
  have hnone := regAt_of_unmapped hoff
  exact ⟨fun hread => step_unmapped hread hnone, fun hwrite => step_unmapped hwrite hnone⟩

/-! ### The table of reads (R54) -/

theorem bitWord_eq_append (b : Bool) : bitWord b = 0#31 ++ BitVec.ofBool b := by
  cases b <;> rfl

theorem bitWord_getLsbD (b : Bool) (i : Nat) : (bitWord b).getLsbD i = (b && decide (i = 0)) := by
  cases b <;> simp [bitWord]

/-- The STATUS word field by field, bit 31 first (R23). -/
theorem statusWord_eq_append (s : State) :
    statusWord s = 0#20 ++ s.errcode ++ 0#2 ++ BitVec.ofBool s.werr ++ BitVec.ofBool s.stf ++ BitVec.ofBool s.stp
      ++ BitVec.ofBool (decide (s.errcode ≠ 0)) ++ BitVec.ofBool s.done ++ BitVec.ofBool s.busy := by
  apply BitVec.eq_of_getLsbD_eq
  intro i hi
  simp only [statusWord, errFlag, BitVec.getLsbD_or, BitVec.getLsbD_append, BitVec.getLsbD_shiftLeft,
    BitVec.getLsbD_setWidth, bitWord_getLsbD, BitVec.getLsbD_ofBool]
  interval_cases i <;> simp

/-- The table is the register map: each row is the offset and the value of one word. -/
theorem busReadTable_eq (s : State) : busReadTable s = mappedWords.map fun w => (offsetOf w, readReg w s) := by
  have hstatus := statusWord_eq_append s
  have hctrl := bitWord_eq_append s.ctrlIe
  have hsafe := bitWord_eq_append s.safe
  have hbyte (x : BitVec 8) : x.setWidth 32 = 0#24 ++ x := BitVec.setWidth_eq_append (by decide)
  have hthresh := hbyte s.thresh
  have hstrength := hbyte s.strength
  simp only [busReadTable, ← hstatus, ← hctrl, ← hsafe, ← hthresh, ← hstrength]
  rfl

theorem mem_busReadTable {s : State} {off : Offset} {v : Word} :
    (off, v) ∈ busReadTable s ↔ ∃ w, off = offsetOf w ∧ v = readReg w s := by
  simp [busReadTable_eq, mem_mappedWords, eq_comm]

/-- Settles O24: the offsets of the table are those of the register words (`mem_busReadTable`). -/
theorem readsReturnTheRegisterTable : Obligations.ReadsReturnTheRegisterTable := by
  refine fun s off rest hnext => ⟨fun v hrow => ?mapped, fun hno => ?unmapped⟩
  case mapped =>
    obtain ⟨w, rfl, rfl⟩ := mem_busReadTable.mp hrow
    exact step_read32 hnext
  case unmapped =>
    have hne (w : RegWord) : off ≠ offsetOf w := fun hw => hno _ (mem_busReadTable.mpr ⟨w, hw, rfl⟩)
    exact step_unmapped hnext (regAt_eq_none_of_ne hne)

/-! ### The table of writes (R55) -/

/-- `x` with word j replaced by v, as the tables concatenate it. -/
def withWord (x : Elem) (v : Word) : Fin 4 → Elem
  | 0 => withWord0 x v
  | 1 => withWord1 x v
  | 2 => withWord2 x v
  | 3 => withWord3 x v

theorem setWord_eq_withWord (x : Elem) (j : Fin 4) (v : Word) : setWord x j v = withWord x v j := by
  apply BitVec.eq_of_getLsbD_eq
  intro i hi
  rw [setWord_getLsbD x j v i hi]
  match j with
  | 0 => grind [withWord, withWord0, wordShift]
  | 1 => grind [withWord, withWord1, wordShift]
  | 2 => grind [withWord, withWord2, wordShift]
  | 3 => grind [withWord, withWord3, wordShift]

theorem whenIdle_of_idle {s : State} (hidle : s.busy = false) (next : State) : whenIdle s next = next :=
  if_neg (by simp [hidle])

theorem whenIdle_of_busy {s : State} (hbusy : s.busy = true) (next : State) :
    whenIdle s next = { s with werr := true } :=
  if_pos hbusy

theorem writeReg_readOnly {w : RegWord} (hw : w ∈ readOnlyWords) (v : Word) (s : State) : writeReg w v s = s := by
  have hall : ∀ w ∈ readOnlyWords, writeReg w v s = s := by
    simp [readOnlyWords, wordsOf, writeReg, writeData]
  exact hall w hw

/-- While busy a write of a word taken only while idle is dropped (R214). -/
theorem writeReg_idleOnly_busy {w : RegWord} (hw : w ∈ idleOnlyWords) (v : Word) {s : State} (hbusy : s.busy = true) :
    writeReg w v s = { s with werr := true } := by
  have hall : ∀ w ∈ idleOnlyWords, writeReg w v s = { s with werr := true } := by
    simp [idleOnlyWords, wordsOf, writeReg, writeData, whenIdle_of_busy hbusy]
  exact hall w hw

theorem anyTimeWriteTable_eq (s : State) (v : Word) :
    anyTimeWriteTable s v = anyTimeWords.map fun w => (offsetOf w, writeReg w v s) := by
  have hclear (flag bit : Bool) : (if bit then false else flag) = (flag && !bit) := by
    cases bit <;> simp
  simp [anyTimeWriteTable, anyTimeWords, writeReg, writeStatus, offsetOf, hclear]

/-- While idle the table is what `writeReg` does at the words taken only then. -/
theorem idleWriteTable_eq {s : State} (v : Word) (hidle : s.busy = false) :
    idleWriteTable s v = idleOnlyWords.map fun w => (offsetOf w, writeReg w v s) := by
  simp only [writeReg, writeData, whenIdle_of_idle hidle, setWord_eq_withWord]
  rfl

theorem idleWriteTable_offsets (s : State) (v : Word) : (idleWriteTable s v).map Prod.fst = idleOnlyOffsets := rfl

theorem writeReg_of_mem_anyTimeWriteTable {s u : State} {off : Offset} {v : Word}
    (hrow : (off, u) ∈ anyTimeWriteTable s v) : ∃ w, off = offsetOf w ∧ writeReg w v s = u := by
  rw [anyTimeWriteTable_eq] at hrow
  obtain ⟨w, -, hw⟩ := List.mem_map.mp hrow
  obtain ⟨rfl, rfl⟩ := Prod.mk.inj hw
  exact ⟨w, rfl, rfl⟩

/-- A row of the table is the write of one word: taken while idle, dropped while busy. -/
theorem writeReg_of_mem_idleWriteTable {s u : State} {off : Offset} {v : Word}
    (hrow : (off, u) ∈ idleWriteTable s v) :
    ∃ w, off = offsetOf w ∧ writeReg w v s = if s.busy then { s with werr := true } else u := by
  by_cases hbusy : s.busy = true
  · rw [if_pos hbusy]
    have hoff : off ∈ idleOnlyOffsets := idleWriteTable_offsets s v ▸ List.mem_map_of_mem hrow
    obtain ⟨w, hw, rfl⟩ := List.mem_map.mp (idleOnlyOffsets_eq ▸ hoff)
    exact ⟨w, rfl, writeReg_idleOnly_busy hw v hbusy⟩
  · rw [if_neg hbusy]
    rw [idleWriteTable_eq v (Bool.eq_false_iff.mpr hbusy)] at hrow
    obtain ⟨w, -, hw⟩ := List.mem_map.mp hrow
    obtain ⟨rfl, rfl⟩ := Prod.mk.inj hw
    exact ⟨w, rfl, rfl⟩

theorem offsetOf_listed (w : RegWord) :
    offsetOf w ∈ readOnlyOffsets ∨ offsetOf w ∈ idleOnlyOffsets ∨ offsetOf w ∈ [0x04, 0x08] := by
  rcases mem_anyTime_or_idleOnly_or_readOnly w with hw | hw | hw
  · exact .inr (.inr (List.mem_map_of_mem (f := offsetOf) hw))
  · exact .inr (.inl (List.mem_map_of_mem hw))
  · exact .inl (List.mem_map_of_mem hw)

/-- Settles O25: each row of the tables is the write of one register word, and every word has its row. -/
theorem writesFollowTheRegisterTable : Obligations.WritesFollowTheRegisterTable := by
  refine fun s off v rest hnext => ⟨fun u hrow => ?anyTime, fun u hrow => ?idleOnly, fun hoff => ?readOnly,
    fun hro hidle hany => ?unmapped⟩
  case anyTime =>
    obtain ⟨w, rfl, hwrite⟩ := writeReg_of_mem_anyTimeWriteTable hrow
    rw [step_write32_answered hnext, hwrite]
  case idleOnly =>
    obtain ⟨w, rfl, hwrite⟩ := writeReg_of_mem_idleWriteTable hrow
    rw [step_write32_answered hnext, hwrite]
  case readOnly =>
    obtain ⟨w, hw, rfl⟩ := List.mem_map.mp (readOnlyOffsets_eq ▸ hoff)
    rw [step_write32_answered hnext, writeReg_readOnly hw]
  case unmapped =>
    refine step_unmapped hnext (regAt_eq_none_of_ne fun w hw => ?_)
    subst hw
    rcases offsetOf_listed w with hw | hw | hw
    · exact hro hw
    · exact hidle hw
    · exact hany hw

/-! ### Repeated accesses (R59) -/

theorem hostAccess_read32 {s : State} (hreset : s.inReset = false) (w : RegWord) :
    hostAccess (read32 (offsetOf w)) s = respond (.data (readReg w s)) s :=
  hostAccess_mapped hreset (regAt_offsetOf w) .read

theorem hostAccess_write32 {s : State} (hreset : s.inReset = false) (w : RegWord) (v : Word) :
    hostAccess (write32 (offsetOf w) v) s = respond .ok (writeReg w v s) :=
  hostAccess_mapped hreset (regAt_offsetOf w) (.write v)

/-- No read looks at the earlier responses. -/
theorem readReg_respond (w : RegWord) (resp : BusResponse) (s : State) : readReg w (respond resp s) = readReg w s := by
  cases w with
  | data x j => cases x <;> rfl
  | _ => rfl

theorem writeReg_respond (w : RegWord) (v : Word) (resp : BusResponse) (s : State) :
    writeReg w v (respond resp s) = respond resp (writeReg w v s) := by
  obtain ⟨-, -, -, -, -, -, -, hinputs, hresponses⟩ := writeReg_frame w v s
  have hwrite : writeReg w v (respond resp s) =
      { writeReg w v s with inputs := s.inputs, responses := s.responses ++ [resp] } :=
    writeReg_schedule w v s s.inputs (s.responses ++ [resp])
  rw [hwrite, respond, ← hinputs, ← hresponses]

theorem hostAccess_write32_twice {s : State} (hreset : s.inReset = false) (w : RegWord) (v : Word) :
    hostAccess (write32 (offsetOf w) v) (hostAccess (write32 (offsetOf w) v) s) =
      respond .ok (respond .ok (writeReg w v (writeReg w v s))) := by
  obtain ⟨-, -, -, -, -, -, hkept, -, -⟩ := writeReg_frame w v s
  have hreset' : (respond .ok (writeReg w v s)).inReset = false := hkept.trans hreset
  rw [hostAccess_write32 hreset, hostAccess_write32 hreset', writeReg_respond]

/-- A write of any word but CMD repeated is one write (R59); a dropped write sets WERR both times. -/
theorem writeReg_writeReg {w : RegWord} (hw : w ≠ .cmd) (v : Word) (s : State) :
    writeReg w v (writeReg w v s) = writeReg w v s := by
  cases w with
  | data x j => cases x <;> cases hb : s.busy <;> simp [writeReg, writeData, whenIdle, hb, setWord_setWord]
  | cmd => exact absurd rfl hw
  | thresh => cases hb : s.busy <;> simp [writeReg, whenIdle, hb]
  | status => simp [writeReg, writeStatus]
  | _ => rfl

/-- The second of two CMD writes finds the block busy (R55). -/
theorem writeReg_cmd_twice {s : State} (hidle : s.busy = false) (v : Word) :
    writeReg .cmd v (writeReg .cmd v s) = { issue v s with werr := true } := by
  have hfirst : writeReg .cmd v s = issue v s := whenIdle_of_idle hidle _
  rw [hfirst]
  exact whenIdle_of_busy (issue_busy v s) _

/-- Settles O30: reads write nothing, `writeReg_writeReg`, and `writeReg_cmd_twice`. -/
theorem repeatedAccessesAreIdempotentButForCmd : Obligations.RepeatedAccessesAreIdempotentButForCmd := by
  refine ⟨fun s w hreset => ?reads, fun s w v hreset hw => ?writes, fun s v hreset hidle => ?issue⟩
  case reads =>
    have hreset' : (respond (.data (readReg w s)) s).inReset = false := hreset
    rw [hostAccess_read32 hreset, hostAccess_read32 hreset', readReg_respond]
    exact ⟨rfl, List.append_assoc s.responses _ _⟩
  case writes =>
    rw [hostAccess_write32_twice hreset, writeReg_writeReg hw, hostAccess_write32 hreset]
    rfl
  case issue =>
    have htwice := hostAccess_write32_twice hreset .cmd v
    rw [writeReg_cmd_twice hidle] at htwice
    rw [show (0x0C : Offset) = offsetOf .cmd from rfl, htwice]
    rfl

/-! ### Between an issue and its completion (R64, R213) -/

/-- What no host access changes while a command is pending: the command, its operands, the results, and the
flags but for CTRL.IE and WERR (R213, R214). -/
structure KeepsPending (s u : State) : Prop where
  busy : u.busy = s.busy
  cmd : u.cmd = s.cmd
  a : u.a = s.a
  b : u.b = s.b
  e : u.e = s.e
  thresh : u.thresh = s.thresh
  stp : u.stp = s.stp
  stf : u.stf = s.stf
  r : u.r = s.r
  ord : u.ord = s.ord
  strength : u.strength = s.strength
  safe : u.safe = s.safe
  errcode : u.errcode = s.errcode
  done : s.done = false → u.done = false
  inReset : u.inReset = s.inReset

theorem KeepsPending.refl (s : State) : KeepsPending s s := by
  constructor <;> simp

theorem KeepsPending.trans {s u z : State} (h : KeepsPending s u) (k : KeepsPending u z) : KeepsPending s z where
  busy := k.busy.trans h.busy
  cmd := k.cmd.trans h.cmd
  a := k.a.trans h.a
  b := k.b.trans h.b
  e := k.e.trans h.e
  thresh := k.thresh.trans h.thresh
  stp := k.stp.trans h.stp
  stf := k.stf.trans h.stf
  r := k.r.trans h.r
  ord := k.ord.trans h.ord
  strength := k.strength.trans h.strength
  safe := k.safe.trans h.safe
  errcode := k.errcode.trans h.errcode
  done := k.done ∘ h.done
  inReset := k.inReset.trans h.inReset

/-- The schedule and the record of responses are no part of it. -/
theorem keepsPending_schedule (s : State) (rest : List Event) (resps : List BusResponse) :
    KeepsPending s { s with inputs := rest, responses := resps } := by
  constructor <;> simp

theorem hostAccess_keepsPending (acc : Access) {s : State} (hbusy : s.busy = true) :
    KeepsPending s (hostAccess acc s) := by
  obtain ⟨hr, hord, hstrength, hsafe, hstp, hstf, hreset, -⟩ := hostAccess_frame acc s
  obtain ⟨hb, hcmd, ha, hB, he, hthresh, herr, hdone⟩ := hostAccess_busy acc hbusy
  exact ⟨hb.trans hbusy.symm, hcmd, ha, hB, he, hthresh, hstp, hstf, hr, hord, hstrength, hsafe, herr, hdone,
    hreset⟩

theorem step_host_keepsPending {s : State} {acc : Access} {rest : List Event} (hbusy : s.busy = true)
    (hinputs : s.inputs = .host acc :: rest) : ∃ u, step s = .next u ∧ u.inputs = rest ∧ KeepsPending s u := by
  obtain ⟨-, -, -, -, -, -, -, hrest⟩ := hostAccess_frame acc { s with inputs := rest }
  exact ⟨_, step_of_cons hinputs, hrest,
    (keepsPending_schedule s rest s.responses).trans (hostAccess_keepsPending acc hbusy)⟩

/-- A busy block runs through any list of host accesses with its pending command kept. -/
theorem run_hostAccesses (accs : List Access) {s : State} {rest : List Event} (hbusy : s.busy = true)
    (hinputs : s.inputs = accs.map Event.host ++ rest) :
    ∃ u : State, (∀ n, Host.Core.run core (accs.length + n) s = Host.Core.run core n u) ∧ u.inputs = rest ∧
      KeepsPending s u := by
  induction accs generalizing s with
  | nil => exact ⟨s, fun n => by rw [List.length_nil, Nat.zero_add], hinputs, .refl s⟩
  | cons acc accs ih =>
    obtain ⟨s', hstep, hinputs', hkept⟩ := step_host_keepsPending hbusy hinputs
    obtain ⟨u, hrun, hrest, hkept'⟩ := ih (hkept.busy.trans hbusy) hinputs'
    refine ⟨u, fun n => ?_, hrest, hkept.trans hkept'⟩
    rw [List.length_cons, Nat.add_right_comm, run_succ_of_next hstep]
    exact hrun n

/-- A write of CMD in an idle block is the issue (R210). -/
theorem step_issue {s : State} {w : Word} {rest : List Event} (h : HostIsNext s (write32 (offsetOf .cmd) w) rest)
    (hidle : s.busy = false) : step s = .next (answered .ok rest (issue w s)) := by
  have hwrite : writeReg .cmd w s = issue w s := whenIdle_of_idle hidle _
  rw [step_write32_answered h, hwrite]

/-- After an issue and any host accesses the block holds the issued command as the issue left it. -/
theorem run_issuedThen {s : State} {w : Word} {accs : List Access} {rest : List Event}
    (h : IssuedThen s w accs rest) :
    ∃ u : State, (∀ n, Host.Core.run core (accs.length + 1 + n) s = Host.Core.run core n u) ∧ u.inputs = rest ∧
      KeepsPending (issue w s) u := by
  obtain ⟨hreset, hidle, hinputs⟩ := h
  have hissue := step_issue ⟨hreset, hinputs⟩ hidle
  obtain ⟨u, hrun, hrest, hkept⟩ :=
    run_hostAccesses accs (s := answered .ok (accs.map Event.host ++ rest) (issue w s)) rfl rfl
  refine ⟨u, fun n => ?_, hrest, (keepsPending_schedule _ _ _).trans hkept⟩
  rw [Nat.add_right_comm, run_succ_of_next hissue]
  exact hrun n

/-! ### The engine's turn -/

theorem run_one (s : State) : Host.Core.run core 1 s = step s := by
  change Host.Core.run core 1 s = core.step s
  simp only [Host.Core.run]
  cases core.step s <;> rfl

theorem step_of_engineIsNext {s : State} {rest : List Event} (h : EngineIsNext s rest) :
    step s = engineTurn { s with inputs := rest } := by
  rcases h with ⟨hinputs, rfl⟩ | hinputs
  · rw [step_of_empty hinputs, ← hinputs]
  · exact step_of_cons hinputs

theorem step_command {s : State} {rest : List Event} {i : Instr} (h : EngineIsNext s rest) (hbusy : s.busy = true)
    (hdecode : decode s.cmd = .command i) : step s = exec i { s with inputs := rest } := by
  rw [step_of_engineIsNext h, engineTurn, if_pos hbusy, engineStep, fetchWord, hdecode]

theorem step_illegalWord {s : State} {rest : List Event} {why : IllegalWord} (h : EngineIsNext s rest)
    (hbusy : s.busy = true) (hdecode : decode s.cmd = .illegal why) :
    step s = .next (ended 1 { s with inputs := rest }) := by
  rw [step_of_engineIsNext h, engineTurn, if_pos hbusy, engineStep, fetchWord, hdecode]
  rfl

/-- Settles O13: the engine's turn comes at the state `run_issuedThen` gives, which holds the word and the operands
of the issue. -/
theorem engineExecutesTheIssuedWord : Obligations.EngineExecutesTheIssuedWord := by
  intro s w accs rest hissued
  obtain ⟨u, hrun, hinputs, hkept⟩ := run_issuedThen hissued
  have hnext : EngineIsNext u rest := .inr hinputs
  have hbusy : u.busy = true := hkept.busy
  have hcmd : u.cmd = w := hkept.cmd
  have hstep : Host.Core.run core (accs.length + 2) s = step u := (hrun 1).trans (run_one u)
  refine ⟨{ u with inputs := rest }, hcmd, hkept.a, hkept.b, hkept.e, hkept.thresh, hkept.stp, hkept.stf, hbusy, rfl,
    fun i hdecode => ?command, fun why hdecode => ?illegal⟩
  case command => exact hstep.trans (step_command hnext hbusy (hcmd ▸ hdecode))
  case illegal => exact hstep.trans (step_illegalWord hnext hbusy (hcmd ▸ hdecode))

end Sys2Proof.Proofs
end

section
/-! PROOFS. The encoding (30_encoding.md): a command is the word whose value is its OP code, and a word is ILLEGAL by
one of its two fields (R73, R74). -/

namespace Sys2Proof.Proofs

open Sys2Proof.Machine Sys2Proof.Safety

/-! ### The eight commands (R72) -/

theorem decode_encode (i : Instr) : decode (encode i) = .command i := by
  have fits : Laws.FitsFormatC.Statement i := by
    cases i with
    | nop => exact Laws.FitsFormatC.nop
    | gfmul => exact Laws.FitsFormatC.gfmul
    | gfsqr => exact Laws.FitsFormatC.gfsqr
    | gfexp => exact Laws.FitsFormatC.gfexp
    | gford => exact Laws.FitsFormatC.gford
    | gfstr => exact Laws.FitsFormatC.gfstr
    | gfjdg => exact Laws.FitsFormatC.gfjdg
    | selftest => exact Laws.FitsFormatC.selftest
  obtain ⟨-, -, hdecode, -⟩ := fits
  exact hdecode

/-- RSV is 0 above OP in a command's word, so its value is the OP code. -/
theorem encode_toNat (i : Instr) : (encode i).toNat = (opcodeOf i).toNat :=
  (BitVec.toNat_append 0#28 (opcodeOf i)).trans (by simp)

theorem decode_of_toNat_eq_opcode {w : Word} (i : Instr) (h : w.toNat = (opcodeOf i).toNat) :
    decode w = .command i := by
  obtain rfl : w = encode i := BitVec.eq_of_toNat_eq (h.trans (encode_toNat i).symm)
  exact decode_encode i

/-! ### The ILLEGAL words (R73, R74) -/

theorem rsvField_toNat (w : Word) : (rsvField w).toNat = w.toNat / 16 := by
  have hlt := w.isLt
  rw [rsvField, BitVec.extractLsb'_toNat, Nat.shiftRight_eq_div_pow]
  exact Nat.mod_eq_of_lt (by omega)

theorem opField_toNat (w : Word) : (opField w).toNat = w.toNat % 16 := by
  simp [opField]

theorem decodeOp_of_reserved : ∀ op : BitVec 4, 8 ≤ op.toNat → decodeOp op = .illegal (.reservedOpcode op) := by
  decide

/-- Either field out of format C makes the word ILLEGAL: RSV whatever OP is, and OP where RSV is 0. -/
theorem decode_illegal_of_fields {w : Word} (h : rsvField w ≠ 0 ∨ 8 ≤ (opField w).toNat) :
    ∃ why, decode w = .illegal why := by
  by_cases hrsv : rsvField w = 0
  · have hop : 8 ≤ (opField w).toNat := h.resolve_left (not_not_intro hrsv)
    exact ⟨_, (if_neg (not_not_intro hrsv)).trans (decodeOp_of_reserved _ hop)⟩
  · exact ⟨_, if_pos hrsv⟩

/-- A value above 7 shows in one of the two fields: from 16 on in RSV, and from 8 to 15 in OP. -/
theorem illegal_fields_of_seven_lt {w : Word} (h : 7 < w.toNat) : rsvField w ≠ 0 ∨ 8 ≤ (opField w).toNat := by
  rcases Nat.lt_or_ge w.toNat 16 with hlt | hge
  · exact .inr (by rw [opField_toNat]; omega)
  · refine .inl fun hzero => ?_
    have hdiv : w.toNat / 16 = 0 := by rw [← rsvField_toNat, hzero]; rfl
    omega

/-- Settles O2: the eight values are the OP codes, a larger one is ILLEGAL by its fields, and the engine's turn is
`step_command` or `step_illegalWord`. -/
theorem decodeFollowsTheOpcodeMap : Obligations.DecodeFollowsTheOpcodeMap := by
  refine ⟨fun w => ⟨decode_of_toNat_eq_opcode .nop, decode_of_toNat_eq_opcode .gfmul,
    decode_of_toNat_eq_opcode .gfsqr, decode_of_toNat_eq_opcode .gfexp, decode_of_toNat_eq_opcode .gford,
    decode_of_toNat_eq_opcode .gfstr, decode_of_toNat_eq_opcode .gfjdg, decode_of_toNat_eq_opcode .selftest,
    fun h => ?larger⟩, fun s rest hnext hbusy => ⟨fun i => ?command, fun why => ?illegal⟩⟩
  case larger => exact decode_illegal_of_fields (illegal_fields_of_seven_lt h)
  case command => exact step_command hnext hbusy
  case illegal => exact step_illegalWord hnext hbusy

/-- Settles O4: the issue does not look at the word (`step_issue`), and `decode_illegal_of_fields` sends the engine's
turn to `step_illegalWord`. -/
theorem illegalWordsIssueAndCompleteWithErrIllegal : Obligations.IllegalWordsIssueAndCompleteWithErrIllegal := by
  refine fun w hfields => ⟨fun s rest hnext hidle => ?issue, fun s rest hnext hbusy hcmd => ?complete⟩
  case issue => exact step_issue hnext hidle
  case complete =>
    obtain ⟨why, hdecode⟩ := decode_illegal_of_fields hfields
    exact step_illegalWord hnext hbusy (hcmd ▸ hdecode)

end Sys2Proof.Proofs
end

section
/-! PROOFS. The field arithmetic (40_gf128_arithmetic.md). Every law of gf_mul and gf_exp is read off the quotient ring
of polynomials over GF(2) modulo the reduction polynomial: `residue` sends an element to its class there, is injective,
and turns gf_mul into the ring's product and gf_exp into its power. -/

namespace Sys2Proof.Proofs

open Sys2Proof.Machine Sys2Proof.Safety Sys2Proof.Laws Polynomial

/-! ### Elements as residues modulo the reduction polynomial (R10, R101) -/

/-- The class of an element's polynomial modulo the reduction polynomial. -/
noncomputable def residue (v : Elem) : AdjoinRoot reductionPoly := AdjoinRoot.mk reductionPoly (poly v)

theorem poly_degree_lt_reductionPoly (v : Elem) : (poly v).degree < reductionPoly.degree := by
  have hdegree : reductionPoly.degree = 128 := by
    unfold reductionPoly
    compute_degree!
  rw [hdegree]
  exact poly_degree_lt v

/-- A polynomial of smaller degree than the modulus is 0 where its class is. -/
theorem eq_zero_of_mk_eq_zero {R : Type*} [CommRing R] [NoZeroDivisors R] {m p : R[X]}
    (hdegree : p.degree < m.degree) (h : AdjoinRoot.mk m p = 0) : p = 0 :=
  eq_zero_of_dvd_of_degree_lt (AdjoinRoot.mk_eq_zero.mp h) hdegree

theorem residue_zero : residue 0 = 0 := by
  rw [residue, poly_zero, map_zero]

theorem poly_gfOne : poly gfOne = 1 := by
  have hbit : ∀ i < 128, gfOne.getLsbD (127 - i) = decide (i = 0) := by decide
  ext i
  rw [poly_coeff, coeff_one]
  by_cases hi : i < 128
  · simp [hi, hbit i hi]
  · simp [hi, show i ≠ 0 by omega]

@[simp] theorem residue_gfOne : residue gfOne = 1 := by
  rw [residue, poly_gfOne, map_one]

theorem residue_xor (u v : Elem) : residue (u ^^^ v) = residue u + residue v := by
  unfold residue
  rw [poly_xor, map_add]

theorem eq_zero_of_residue_eq_zero {v : Elem} (h : residue v = 0) : v = 0 := by
  have hpoly : poly v = 0 := eq_zero_of_mk_eq_zero (poly_degree_lt_reductionPoly v) h
  exact poly_injective (hpoly.trans poly_zero.symm)

/-- An element is its own negative, so two elements of the same class differ by an element of class 0. -/
theorem residue_injective : Function.Injective residue := by
  intro u v h
  have hdiff : residue (u ^^^ v) = 0 := by
    rw [residue_xor, h, ← residue_xor, BitVec.xor_self]
    exact residue_zero
  exact BitVec.xor_eq_zero_iff.mp (eq_zero_of_residue_eq_zero hdiff)

/-- The step of the shifted operand is multiplication by x: what `poly_shiftReduce` adds is a multiple of the modulus. -/
theorem residue_shiftReduce (v : Elem) : residue (shiftReduce v) = AdjoinRoot.root reductionPoly * residue v := by
  have hstep := congrArg (AdjoinRoot.mk reductionPoly) (poly_shiftReduce v)
  rw [map_mul, map_add, AdjoinRoot.mk_X, apply_ite (AdjoinRoot.mk reductionPoly), AdjoinRoot.mk_self, map_zero,
    ite_self, add_zero] at hstep
  exact hstep.symm

/-! ### The multiply loop as a product (R100) -/

/-- The polynomial of the low `i` bits of `y`, which the loop's last `i` turns read from bit i − 1 down: bit i − 1 is
the coefficient of x^0, since those turns begin with the shifted operand as it is. -/
noncomputable def lowBitsPoly (y : Elem) (i : Nat) : (ZMod 2)[X] :=
  ∑ k ∈ Finset.range i, if y.getLsbD (i - 1 - k) then X ^ k else 0

theorem lowBitsPoly_zero (y : Elem) : lowBitsPoly y 0 = 0 := Finset.sum_range_zero _

theorem lowBitsPoly_succ (y : Elem) (i : Nat) :
    lowBitsPoly y (i + 1) = (if y.getLsbD i then 1 else 0) + X * lowBitsPoly y i := by
  unfold lowBitsPoly
  rw [Finset.sum_range_succ', add_comm, Finset.mul_sum]
  congr 1
  refine Finset.sum_congr rfl fun k _ => ?_
  rw [show i + 1 - 1 - (k + 1) = i - 1 - k by omega, mul_ite, mul_zero, pow_succ']

/-- All 128 turns read the whole of `y`. -/
theorem lowBitsPoly_128 (y : Elem) : lowBitsPoly y 128 = poly y := rfl

/-- The last `i` turns add the shifted operand times the polynomial of the bits they read to the accumulator. -/
theorem residue_gfMulLoop (y : Elem) (i : Nat) (z v : Elem) :
    residue (gfMulLoop y i z v) = residue z + residue v * AdjoinRoot.mk reductionPoly (lowBitsPoly y i) := by
  induction i generalizing z v with
  | zero => rw [gfMulLoop_zero, lowBitsPoly_zero, map_zero, mul_zero, add_zero]
  | succ i ih =>
    rw [gfMulLoop_succ, ih, residue_shiftReduce, lowBitsPoly_succ, map_add, map_mul, AdjoinRoot.mk_X]
    cases y.getLsbD i with
    | false => simp only [Bool.false_eq_true, if_false, map_zero]; ring
    | true => simp only [if_true, map_one, residue_xor]; ring

/-- gf_mul is the product of the quotient ring (R101). -/
@[simp] theorem residue_gfMul (x y : Elem) : residue (gfMul x y) = residue x * residue y := by
  rw [gfMul, residue_gfMulLoop, lowBitsPoly_128, residue_zero, zero_add]
  rfl

@[simp] theorem gfMul_gfOne (x : Elem) : gfMul x gfOne = x := residue_injective (by simp)

@[simp] theorem gfOne_gfMul (y : Elem) : gfMul gfOne y = y := residue_injective (by simp)

theorem gfMul_zero (x : Elem) : gfMul x 0 = 0 :=
  residue_injective (by rw [residue_gfMul, residue_zero, mul_zero])

theorem zero_gfMul (y : Elem) : gfMul 0 y = 0 :=
  residue_injective (by rw [residue_gfMul, residue_zero, zero_mul])

/-! ### Exponentiation as a power (R106, R107) -/

@[simp] theorem residue_gfSqr (x : Elem) : residue (gfSqr x) = residue x ^ 2 := by
  rw [gfSqr, residue_gfMul, sq]

/-- gf_exp is the power of the quotient ring: squaring the base stands for the 2 (n / 2) of the exponent, and the extra
multiplication for n % 2. -/
@[simp] theorem residue_gfExp (x : Elem) (n : Nat) : residue (gfExp x n) = residue x ^ n := by
  induction n using Nat.strongRecOn generalizing x with
  | ind n ih =>
    by_cases hn : n = 0
    · rw [hn, gfExp_zero, residue_gfOne, pow_zero]
    · have hhalf : residue (gfExp (gfSqr x) (n / 2)) = residue x ^ (2 * (n / 2)) := by
        rw [ih (n / 2) (by omega), residue_gfSqr, pow_mul]
      rw [gfExp_of_pos x hn]
      by_cases hodd : n % 2 = 1
      · rw [if_pos hodd, residue_gfMul, hhalf, ← pow_succ', show 2 * (n / 2) + 1 = n by omega]
      · rw [if_neg hodd, hhalf, show 2 * (n / 2) = n by omega]

@[simp] theorem gfExp_one (x : Elem) : gfExp x 1 = x := residue_injective (by simp)

theorem gfExp_add (x : Elem) (m n : Nat) : gfExp x (m + n) = gfMul (gfExp x m) (gfExp x n) :=
  residue_injective (by simp [pow_add])

/-- Settles O46: closure is the width of an element, the exponents are `residue_gfExp`. -/
theorem sourceLawsOfTheArithmetic : Obligations.SourceLawsOfTheArithmetic :=
  ⟨fun x y => (gfMul x y).isLt, gfMul_gfOne, gfExp_one, gfExp_zero, gfExp_add⟩

/-! ### GFMUL and GFSQR (R104, R105) -/

theorem exec_gfmul (s : State) : exec .gfmul s = .next (finishField (gfMul s.a s.b) s) := rfl

theorem exec_gfsqr (s : State) : exec .gfsqr s = .next (finishField (gfSqr s.a) s) := rfl

theorem finishField_eq (x : Elem) (s : State) :
    finishField x s = { s with r := x, errcode := 0, done := true, busy := false } := rfl

/-- x^128 reduces to 1 + x + x^2 + x^7 (R104). -/
theorem gfMul_x127_x : gfMul 0x00000000000000000000000000000001 0x40000000000000000000000000000000
    = 0xE1000000000000000000000000000000 := by decide +kernel

/-- The square of x^64 (R105). -/
theorem gfSqr_x64 : gfSqr 0x00000000000000008000000000000000 = 0xE1000000000000000000000000000000 := by
  decide +kernel

/-- Settles O40: the arm of GFMUL is its result and frame, and the corner cases are laws of gf_mul. -/
theorem gfmulResult : Obligations.GfmulResult := by
  refine ⟨by decide, fun s => by rw [exec_gfmul, finishField_eq], fun s => ⟨_, exec_gfmul s, ?square, ?zero, ?one⟩,
    gfMul_x127_x⟩
  case square => intro h; rw [finishField_r, ← h, gfSqr]
  case zero =>
    rintro (h | h)
    · rw [finishField_r, h, zero_gfMul]
    · rw [finishField_r, h, gfMul_zero]
  case one => intro h; rw [finishField_r, h, gfOne_gfMul]

/-- Settles O44: the arm of GFSQR is its result and frame, and the corner cases are laws of gf_mul. -/
theorem gfsqrResult : Obligations.GfsqrResult :=
  ⟨by decide, fun s => by rw [exec_gfsqr, finishField_eq], fun _ => rfl, gfMul_zero 0, gfMul_gfOne gfOne,
    gfSqr_x64⟩

end Sys2Proof.Proofs
end

section
/-! PROOFS. The order oracle (41_order_oracle.md). The reduction polynomial is irreducible by Rabin's test, which the
model's own gf_exp evaluates; so the residues form the field of 2^128 elements, and x^NGRP is ONE for x ≠ 0. The order
loop drops a factor p of NGRP where x^(NGRP div p) is ONE; as the factors are pairwise coprime, the product of the rest
still annihilates x. -/

namespace Sys2Proof.Proofs

open Sys2Proof.Machine Sys2Proof.Safety Sys2Proof.Laws Polynomial

/-! ### The order loop visits its factors in any order (R125) -/

/-- Two turns of the loop commute, because multiplication does. -/
theorem orderStep_comm (x : Elem) (o p q : Nat) :
    orderStep x (orderStep x o p) q = orderStep x (orderStep x o q) p := by
  have hstep (o p : Nat) : orderStep x o p = o * orderOver [p] x := foldl_orderStep x [p] o
  rw [hstep, hstep o p, hstep, hstep o q, Nat.mul_right_comm]

theorem orderOver_perm {fs gs : List Nat} (h : fs.Perm gs) (x : Elem) : orderOver fs x = orderOver gs x :=
  h.foldl_eq' (fun p _ q _ o => orderStep_comm x o p q) 1

/-- Settles O51: the listed factors are FACTORS. -/
theorem factorOrderDoesNotMatter : Obligations.FactorOrderDoesNotMatter :=
  fun x _ _ hperm => orderOver_perm hperm x

/-! ### Rabin's test, evaluated by the model -/

/-- The element whose polynomial is X (R10). -/
def elemX : Elem := 0x40000000000000000000000000000000

/-- X^(2^64), reduced. -/
def elemXPow64 : Elem := 0x6F9945A9E519A7229D4C1AD657F8A686

/-- The inverse of X^(2^64) + X. -/
def elemXPow64AddXInv : Elem := 0x180DA934BF53158251C13DBB149F5279

theorem residue_elemX : residue elemX = AdjoinRoot.root reductionPoly := by
  rw [show elemX = shiftReduce gfOne by decide, residue_shiftReduce, residue_gfOne, mul_one]

theorem gfExp_elemX_two_pow_64 : gfExp elemX (2 ^ 64) = elemXPow64 := by decide +kernel

theorem gfExp_elemXPow64_two_pow_64 : gfExp elemXPow64 (2 ^ 64) = elemX := by decide +kernel

theorem gfMul_elemXPow64AddXInv : gfMul (elemXPow64 ^^^ elemX) elemXPow64AddXInv = gfOne := by decide +kernel

theorem root_pow_two_pow_64 : AdjoinRoot.root reductionPoly ^ 2 ^ 64 = residue elemXPow64 := by
  rw [← residue_elemX, ← residue_gfExp, gfExp_elemX_two_pow_64]

theorem root_pow_two_pow_128 : AdjoinRoot.root reductionPoly ^ 2 ^ 128 = AdjoinRoot.root reductionPoly := by
  rw [show 2 ^ 128 = 2 ^ 64 * 2 ^ 64 by norm_num, pow_mul, root_pow_two_pow_64, ← residue_gfExp,
    gfExp_elemXPow64_two_pow_64, residue_elemX]

/-- Rabin's first condition. -/
theorem reductionPoly_dvd_X_pow_sub_X : reductionPoly ∣ X ^ 2 ^ 128 - X := by
  rw [← AdjoinRoot.mk_eq_zero, map_sub, map_pow, AdjoinRoot.mk_X, root_pow_two_pow_128, sub_self]

theorem mk_X_pow_two_pow_64_sub_X : AdjoinRoot.mk reductionPoly (X ^ 2 ^ 64 - X) = residue (elemXPow64 ^^^ elemX) := by
  rw [CharTwo.sub_eq_add, map_add, map_pow, AdjoinRoot.mk_X, root_pow_two_pow_64, residue_xor, residue_elemX]

/-- A polynomial with an inverse modulo `f` is coprime to `f`. -/
theorem isCoprime_of_mk_mul_mk_eq_one {R : Type*} [CommRing R] {f p q : R[X]}
    (h : AdjoinRoot.mk f p * AdjoinRoot.mk f q = 1) : IsCoprime f p := by
  have hmk : AdjoinRoot.mk f (p * q - 1) = 0 := by rw [map_sub, map_mul, h, map_one, sub_self]
  obtain ⟨c, hc⟩ := AdjoinRoot.mk_eq_zero.mp hmk
  exact ⟨-c, q, by linear_combination hc⟩

/-- Rabin's second condition. -/
theorem isCoprime_reductionPoly_X_pow_sub_X : IsCoprime reductionPoly (X ^ 2 ^ 64 - X) := by
  refine isCoprime_of_mk_mul_mk_eq_one (q := poly elemXPow64AddXInv) ?_
  rw [mk_X_pow_two_pow_64_sub_X, ← residue, ← residue_gfMul, gfMul_elemXPow64AddXInv, residue_gfOne]

theorem reductionPoly_natDegree : reductionPoly.natDegree = 128 := by
  unfold reductionPoly
  compute_degree!

/-- A divisor of 128 = 2^7 that does not divide 64 is 128. -/
theorem eq_of_dvd_128_of_not_dvd_64 {d : Nat} (h : d ∣ 128) (h64 : ¬ d ∣ 64) : d = 128 := by
  obtain ⟨k, hk, rfl⟩ := (Nat.dvd_prime_pow Nat.prime_two (m := 7)).mp h
  have hk7 : ¬ k ≤ 6 := fun hk6 => h64 (Nat.pow_dvd_pow 2 hk6)
  rw [show k = 7 by omega]
  norm_num

/-- Over GF(2) the irreducible divisors of X^(2^n) - X are those of a degree that divides n. -/
theorem natDegree_dvd_iff_dvd_X_pow_sub_X {g : (ZMod 2)[X]} (hg : Irreducible g) (n : Nat) :
    g.natDegree ∣ n ↔ g ∣ X ^ 2 ^ n - X := by
  rw [hg.natDegree_dvd_iff_dvd_X_pow_card_pow_sub_X, Nat.card_zmod]

/-- The degree of an irreducible factor divides 128, by the first condition, and does not divide 64, by the second. -/
theorem natDegree_of_irreducible_of_dvd_reductionPoly {g : (ZMod 2)[X]} (hg : Irreducible g)
    (hdvd : g ∣ reductionPoly) : g.natDegree = 128 := by
  have h128 : g.natDegree ∣ 128 := by
    rw [natDegree_dvd_iff_dvd_X_pow_sub_X hg]
    exact hdvd.trans reductionPoly_dvd_X_pow_sub_X
  have h64 : ¬ g.natDegree ∣ 64 := by
    rw [natDegree_dvd_iff_dvd_X_pow_sub_X hg]
    exact fun h => hg.not_isUnit (isCoprime_reductionPoly_X_pow_sub_X.isUnit_of_dvd' hdvd h)
  exact eq_of_dvd_128_of_not_dvd_64 h128 h64

/-- Rabin's test: the reduction polynomial is its own irreducible factor. -/
theorem reductionPoly_irreducible : Irreducible reductionPoly := by
  have hpos : 0 < reductionPoly.natDegree := by rw [reductionPoly_natDegree]; norm_num
  have hne : reductionPoly ≠ 0 := ne_zero_of_natDegree_gt hpos
  obtain ⟨g, hg, hdvd⟩ := WfDvdMonoid.exists_irreducible_factor (not_isUnit_of_natDegree_pos _ hpos) hne
  have hdegree : reductionPoly.natDegree ≤ g.natDegree := by
    rw [reductionPoly_natDegree, natDegree_of_irreducible_of_dvd_reductionPoly hg hdvd]
  exact (associated_of_dvd_of_natDegree_le hdvd hne hdegree).irreducible hg

/-! ### The field of residues -/

theorem natCard_residues : Nat.card (AdjoinRoot reductionPoly) = 2 ^ 128 := by
  have hmonic : reductionPoly.Monic := by unfold reductionPoly; monicity!
  have hfinite := hmonic.finite_adjoinRoot
  have hfinrank : Module.finrank (ZMod 2) (AdjoinRoot reductionPoly) = 128 :=
    finrank_quotient_span_eq_natDegree.trans reductionPoly_natDegree
  rw [Module.natCard_eq_pow_finrank (K := ZMod 2), Nat.card_zmod, hfinrank]

/-- A nonzero residue is one of the NGRP units of the field (section 1 of 41_order_oracle.md). -/
theorem residue_pow_groupOrder {x : Elem} (hx : x ≠ 0) : residue x ^ groupOrder = 1 := by
  have : Fact (Irreducible reductionPoly) := ⟨reductionPoly_irreducible⟩
  have : Finite (AdjoinRoot reductionPoly) := Nat.finite_of_card_ne_zero (by rw [natCard_residues]; norm_num)
  have := Fintype.ofFinite (AdjoinRoot reductionPoly)
  have h := FiniteField.pow_card_sub_one_eq_one (residue x) (mt eq_zero_of_residue_eq_zero hx)
  rwa [← Nat.card_eq_fintype_card, natCard_residues] at h

theorem gfExp_eq_gfOne_iff {x : Elem} {n : Nat} : gfExp x n = gfOne ↔ orderOf (residue x) ∣ n := by
  rw [orderOf_dvd_iff_pow_eq_one, ← residue_gfExp, ← residue_gfOne, residue_injective.eq_iff]

/-! ### What the order loop leaves (R120, R126) -/

theorem factors_pairwise_coprime : factors.Pairwise Nat.Coprime := by decide

/-- With the factors outside `fs` kept whole in `m`, the order divides what the loop over `fs` leaves of NGRP. Dropping
p is sound because the order then divides `m * fs.prod` too, and p has no common divisor with `fs.prod`. -/
theorem orderOf_dvd_mul_orderOver {x : Elem} (hx : x ≠ 0) (fs : List Nat) (hcoprime : fs.Pairwise Nat.Coprime)
    (m : Nat) (hm : m * fs.prod = groupOrder) : orderOf (residue x) ∣ m * orderOver fs x := by
  induction fs generalizing m with
  | nil =>
    rw [orderOver_nil, ← List.prod_nil, hm]
    exact orderOf_dvd_of_pow_eq_one (residue_pow_groupOrder hx)
  | cons p fs ih =>
    obtain ⟨hp, hfs⟩ := List.pairwise_cons.mp hcoprime
    rw [List.prod_cons] at hm
    have hkeep : orderOf (residue x) ∣ m * p * orderOver fs x := ih hfs (m * p) (by rw [mul_assoc, hm])
    rw [orderOver_cons]
    split
    case isTrue => rwa [← mul_assoc]
    case isFalse hdrop =>
      have hquot : groupOrder / p = m * fs.prod := by
        have hpos : 0 < p := Nat.pos_of_ne_zero fun h => by simp [h, groupOrder] at hm
        exact Nat.div_eq_of_eq_mul_right hpos (by rw [← hm]; ring)
      have hrest : orderOf (residue x) ∣ m * fs.prod := by
        rw [← hquot]
        exact gfExp_eq_gfOne_iff.mp (not_not.mp hdrop)
      have hgcd : Nat.gcd fs.prod (p * orderOver fs x) ∣ orderOver fs x :=
        ((Nat.coprime_list_prod_right_iff.mpr hp).symm.coprime_dvd_left (Nat.gcd_dvd_left ..)).dvd_of_dvd_mul_left
          (Nat.gcd_dvd_right ..)
      calc orderOf (residue x)
        _ ∣ Nat.gcd (m * fs.prod) (m * (p * orderOver fs x)) := Nat.dvd_gcd hrest (by rwa [← mul_assoc])
        _ = m * Nat.gcd fs.prod (p * orderOver fs x) := Nat.gcd_mul_left ..
        _ ∣ m * (1 * orderOver fs x) := by rw [one_mul]; exact Nat.mul_dvd_mul_left m hgcd

theorem orderOf_dvd_gfOrder {x : Elem} (hx : x ≠ 0) : orderOf (residue x) ∣ gfOrder x := by
  have h := orderOf_dvd_mul_orderOver hx factors factors_pairwise_coprime 1 (by rw [one_mul, factors_prod])
  rwa [one_mul] at h

/-- Settles O50: the loop answers a divisor of NGRP that the multiplicative order divides. -/
theorem orderDividesTheGroupOrder : Obligations.OrderDividesTheGroupOrder :=
  fun x hx => ⟨gfOrder_dvd x, gfExp_eq_gfOne_iff.mpr (orderOf_dvd_gfOrder hx)⟩

end Sys2Proof.Proofs
end

section
/-! PROOFS. The judge (43_safety_judge.md): with its three checks passed, GFJDG's verdict is that of the judge on the
strength of A's order and THRESH.T. -/

namespace Sys2Proof.Proofs

open Sys2Proof.Machine Sys2Proof.Safety Sys2Proof.Laws

/-! ### The judge (R140) -/

theorem judge_eq_true_iff {n t : Nat} : judge n t = true ↔ t ≤ n := decide_eq_true_iff

theorem judge_eq_false_iff {n t : Nat} : judge n t = false ↔ n < t := decide_eq_false_iff_not.trans Nat.not_le

/-! ### GFJDG past its checks (R141) -/

theorem exec_gfjdg_of_checks {s : State} (hverified : verified s)
    (hthresh : 1 ≤ s.thresh.toNat ∧ s.thresh.toNat ≤ 128) (ha : s.a ≠ 0) :
    exec .gfjdg s = .next (complete .ok
      (setVerdict (judge (strengthOf (gfOrder s.a)) s.thresh.toNat)
        (setStrength (strengthOf (gfOrder s.a)) (setOrder (gfOrder s.a) s)))) := by
  change execGfjdg s = _
  rw [execGfjdg, verifiedCheck_eq_ok.mpr hverified, orComplete_ok, thresholdCheck_eq_ok.mpr hthresh, orComplete_ok,
    zeroCheck_eq_ok.mpr ha, orComplete_ok, operandA, operandT]

theorem exec_gfjdg_safe {s : State} (hverified : verified s)
    (hthresh : 1 ≤ s.thresh.toNat ∧ s.thresh.toNat ≤ 128) (ha : s.a ≠ 0) :
    ∃ t, exec .gfjdg s = .next t ∧ t.safe = judge (strengthOf (gfOrder s.a)) s.thresh.toNat :=
  ⟨_, exec_gfjdg_of_checks hverified hthresh ha, by rw [complete_safe, setVerdict_safe]⟩

/-- Settles O57: both thresholds are legal, and the judge compares 126 with 126 and with 127. -/
theorem thresholdBoundaryAt126 : Obligations.ThresholdBoundaryAt126 := by
  intro s hverified ha hstrength
  constructor
  case left =>
    intro hthresh
    have hjudge : judge (strengthOf (gfOrder s.a)) s.thresh.toNat = true :=
      judge_eq_true_iff.mpr (by rw [hstrength, hthresh]; decide)
    rw [← hjudge]
    exact exec_gfjdg_safe hverified (by rw [hthresh]; decide) ha
  case right =>
    intro hthresh
    have hjudge : judge (strengthOf (gfOrder s.a)) s.thresh.toNat = false :=
      judge_eq_false_iff.mpr (by rw [hstrength, hthresh]; decide)
    rw [← hjudge]
    exact exec_gfjdg_safe hverified (by rw [hthresh]; decide) ha

end Sys2Proof.Proofs
end

section
/-! PROOFS. NOP (44_selftest_and_control.md R150): the command is the common completion with code OK and nothing else,
and its word is the reset value of CMD, which an idle block holds without having issued it. -/

namespace Sys2Proof.Proofs

open Sys2Proof.Machine Sys2Proof.Safety Sys2Proof.Laws

theorem exec_nop (s : State) : exec .nop s = .next (complete .ok s) := rfl

theorem complete_of_ok (s : State) : complete .ok s = { s with errcode := 0, done := true, busy := false } := by
  rw [complete, errBits_eq_zero.mpr rfl]

theorem encode_nop : encode .nop = 0x00000000 := by decide

theorem reset_cmd_eq_encode_nop : State.reset.cmd = encode .nop := encode_nop.symm

/-- Settles O39: the arm of NOP is the completion with code OK; reset leaves the word of NOP in CMD with BUSY and DONE
at 0. -/
theorem nopOnlyCompletes : Obligations.NopOnlyCompletes := by
  refine ⟨fun s => ?completion, encode_nop, reset_cmd_eq_encode_nop, ?idle, ?notDone⟩
  case completion => rw [exec_nop, complete_of_ok]
  case idle => rfl
  case notDone => rfl

end Sys2Proof.Proofs
end

section
/-! PROOFS. Exceptions (60_exceptions.md): the order of events that arrive together (R187), the first error condition
that applies gives the code (R183), and a nonzero code leaves the results as the issue found them (R184). -/

namespace Sys2Proof.Proofs

open Sys2Proof.Machine Sys2Proof.Safety Sys2Proof.Laws

/-! ### The code of a checked command (R183) -/

theorem orComplete_errcode (c : ErrCode) (s t : State) :
    (orComplete c s t).errcode = if c = .ok then t.errcode else errBits c := by
  rw [orComplete]
  split
  · rfl
  · exact complete_errcode c s

theorem orComplete_verifiedCheck_errcode (s t : State) :
    (orComplete (verifiedCheck s) s t).errcode = if s.stf then 4 else if s.stp = false then 5 else t.errcode := by
  rw [orComplete_errcode]
  cases hstf : s.stf with
  | true => rw [verifiedCheck_of_stf hstf]; rfl
  | false =>
    cases hstp : s.stp with
    | true => rw [verifiedCheck_eq_ok.mpr ⟨hstf, hstp⟩]; rfl
    | false => rw [verifiedCheck_of_not_stp hstf hstp]; rfl

theorem orComplete_thresholdCheck_errcode (s t : State) :
    (orComplete (thresholdCheck s) s t).errcode =
      if s.thresh.toNat = 0 ∨ 128 < s.thresh.toNat then 2 else t.errcode := by
  rw [orComplete_errcode]
  by_cases hout : s.thresh.toNat = 0 ∨ 128 < s.thresh.toNat
  · rw [thresholdCheck_of_out hout, if_pos hout]; rfl
  · rw [thresholdCheck_eq_ok.mpr (by omega), if_neg hout]; rfl

theorem orComplete_zeroCheck_errcode (s t : State) :
    (orComplete (zeroCheck s) s t).errcode = if s.a = 0 then 3 else t.errcode := by
  rw [orComplete_errcode]
  by_cases hzero : s.a = 0
  · rw [zeroCheck_of_zero hzero, if_pos hzero]; rfl
  · rw [zeroCheck_eq_ok.mpr hzero, if_neg hzero]; rfl

/-- The two checks GFORD and GFSTR share (R123, R131), before a completion with OK. -/
theorem verified_zero_checks_errcode (s t : State) :
    (orComplete (verifiedCheck s) s (orComplete (zeroCheck s) s (complete .ok t))).errcode =
      if s.stf then 4 else if s.stp = false then 5 else if s.a = 0 then 3 else 0 := by
  rw [orComplete_verifiedCheck_errcode, orComplete_zeroCheck_errcode, complete_errcode, errBits_eq_zero.mpr rfl]

/-- The three checks of GFJDG (R141), before a completion with OK. -/
theorem verified_threshold_zero_checks_errcode (s t : State) :
    (orComplete (verifiedCheck s) s
      (orComplete (thresholdCheck s) s (orComplete (zeroCheck s) s (complete .ok t)))).errcode =
      if s.stf then 4 else if s.stp = false then 5
        else if s.thresh.toNat = 0 ∨ 128 < s.thresh.toNat then 2 else if s.a = 0 then 3 else 0 := by
  rw [orComplete_verifiedCheck_errcode, orComplete_thresholdCheck_errcode, orComplete_zeroCheck_errcode,
    complete_errcode, errBits_eq_zero.mpr rfl]

theorem exec_selftest_of_stf {s : State} (hstf : s.stf = true) :
    exec .selftest s = .next (complete .selftest s) :=
  congrArg Host.Outcome.next (if_pos hstf)

/-- Settles O37: an ILLEGAL word meets no check, a gated command's checks stand in the order of R183, SELFTEST looks at
STF first, and the other four commands have no check. -/
theorem errorPriority : Obligations.ErrorPriority := by
  refine ⟨fun s rest why hnext hbusy hdecode => ?illegal, fun i s hi => ?oracle, fun s => ?judge,
    fun s hstf => ?selftest, fun i s hi => ?unchecked⟩
  case illegal => exact ⟨_, step_illegalWord hnext hbusy hdecode, rfl⟩
  case oracle => rcases hi with rfl | rfl <;> exact ⟨_, rfl, verified_zero_checks_errcode s _⟩
  case judge => exact ⟨_, rfl, verified_threshold_zero_checks_errcode s _⟩
  case selftest => exact ⟨_, exec_selftest_of_stf hstf, rfl⟩
  case unchecked => rcases hi with rfl | rfl | rfl | rfl <;> exact ⟨_, rfl, rfl⟩

/-! ### The engine's turn of a busy block (R181, R211) -/

/-- A busy engine's turn completes an ILLEGAL word with ERR_ILLEGAL and gives every other word its command's meaning. -/
theorem engineTurn_of_busy {s : State} (hbusy : s.busy = true) :
    engineTurn s = .next (complete .illegal s) ∨
    ∃ i, decode s.cmd = .command i ∧ engineTurn s = exec i s := by
  rcases engineTurn_cases s with ⟨hidle, -⟩ | ⟨-, -, -, hturn⟩ | ⟨-, hcommand⟩
  · exact absurd (hidle.symm.trans hbusy) Bool.false_ne_true
  · exact .inl hturn
  · exact .inr hcommand

theorem engineTurn_completes {s : State} (hbusy : s.busy = true) :
    ∃ t, engineTurn s = .next t ∧ t.done = true ∧ t.busy = false ∧ t.inReset = s.inReset ∧ t.inputs = s.inputs := by
  rcases engineTurn_of_busy hbusy with hturn | ⟨i, -, hturn⟩
  · exact ⟨_, hturn, rfl, rfl, rfl, rfl⟩
  · obtain ⟨t, hexec⟩ := exec_next i s
    obtain ⟨hidle, hdone, -, -, -, -, -, -, -, hreset, hinputs, -⟩ := exec_frame hexec
    exact ⟨t, hturn.trans hexec, hdone, hidle, hreset, hinputs⟩

/-- R184 for the turn alone: the state it starts from is compared with the one it answers. -/
theorem engineTurn_error_keeps_results {s t : State} (hbusy : s.busy = true) (h : engineTurn s = .next t)
    (herr : t.errcode ≠ 0) :
    t.r = s.r ∧ t.ord = s.ord ∧ t.strength = s.strength ∧ t.safe = s.safe ∧ t.done = true ∧
      (decode s.cmd ≠ .command .selftest → t.stp = s.stp ∧ t.stf = s.stf) := by
  rcases engineTurn_of_busy hbusy with hturn | ⟨i, hdecode, hturn⟩
  · obtain rfl := Host.Outcome.next.inj (hturn.symm.trans h)
    simp
  · have hexec : exec i s = .next t := hturn.symm.trans h
    obtain ⟨hr, hord, hstrength, hsafe⟩ := exec_error_keeps_results hexec herr
    obtain ⟨-, hdone, -⟩ := exec_frame hexec
    obtain ⟨-, -, -, -, hselftest⟩ := exec_keeps_unlisted hexec
    refine ⟨hr, hord, hstrength, hsafe, hdone, fun hne => hselftest ?_⟩
    rintro rfl
    exact hne hdecode

/-- Settles O36: the engine's turn comes at the state `run_issuedThen` gives, which holds the results as they stood
before the issue, and an error keeps them (`engineTurn_error_keeps_results`). -/
theorem errorsArePrecise : Obligations.ErrorsArePrecise := by
  intro s t w accs rest hissued hrun herr
  obtain ⟨u, hrunTo, hinputs, hkept⟩ := run_issuedThen hissued
  have hturn : engineTurn { u with inputs := rest } = .next t :=
    (step_of_engineIsNext (.inr hinputs)).symm.trans ((run_one u).symm.trans ((hrunTo 1).symm.trans hrun))
  obtain ⟨hr, hord, hstrength, hsafe, hdone, hselftest⟩ :=
    engineTurn_error_keeps_results (s := { u with inputs := rest }) hkept.busy hturn herr
  refine ⟨hr.trans hkept.r, hord.trans hkept.ord, hstrength.trans hkept.strength, hsafe.trans hkept.safe, hdone,
    fun hne => ?_⟩
  obtain ⟨hstp, hstf⟩ := hselftest (hkept.cmd.symm ▸ hne)
  exact ⟨hstp.trans hkept.stp, hstf.trans hkept.stf⟩

/-! ### Events that arrive together (R187) -/

theorem ordersTogether_reset_left (y : Event) : ordersTogether .resetAssert y = [[.resetAssert, y]] := if_pos rfl

theorem ordersTogether_reset_right {x : Event} (hx : x ≠ .resetAssert) :
    ordersTogether x .resetAssert = [[.resetAssert, x]] :=
  (if_neg hx).trans (if_pos rfl)

theorem ordersTogether_of_ne {x y : Event} (hx : x ≠ .resetAssert) (hy : y ≠ .resetAssert) :
    ordersTogether x y = [[x, y], [y, x]] :=
  (if_neg hx).trans (if_neg hy)

theorem run_two {s u t : State} (hfirst : step s = .next u) (hsecond : step u = .next t) :
    Host.Core.run core 2 s = .next t :=
  (run_succ_of_next hfirst).trans ((run_one u).trans hsecond)

/-- A turn of the engine that stands next in the schedule of a busy block. -/
theorem step_engine_completes {s : State} {rest : List Event} (hbusy : s.busy = true)
    (hinputs : s.inputs = .engine :: rest) :
    ∃ t, step s = .next t ∧ t.done = true ∧ t.busy = false ∧ t.inReset = s.inReset ∧ t.inputs = rest := by
  obtain ⟨t, hturn, ht⟩ := engineTurn_completes (s := { s with inputs := rest }) hbusy
  exact ⟨t, (step_of_engineIsNext (.inr hinputs)).trans hturn, ht⟩

/-- A write of 1 to STATUS bit 1 clears DONE and leaves BUSY as it is (R55). -/
theorem step_clearDone {s : State} {v : Word} {rest : List Event}
    (h : HostIsNext s (write32 (offsetOf .status) v) rest) (hv : v.getLsbD 1 = true) :
    ∃ t, step s = .next t ∧ t.done = false ∧ t.busy = s.busy ∧ t.inputs = rest :=
  ⟨_, step_write32_answered h, by simp [answered, writeReg, writeStatus, hv], rfl, rfl⟩

theorem engineTurn_of_idle {s : State} (hidle : s.busy = false) : engineTurn s = .next s := by
  rw [engineTurn, hidle, if_neg Bool.false_ne_true]

/-- An engine's turn right after the assertion of reset finds no command pending (R200). -/
theorem run_reset_engine {s : State} {rest : List Event} (hinputs : s.inputs = .resetAssert :: .engine :: rest) :
    Host.Core.run core 2 s = .next (assertReset { s with inputs := rest }) :=
  run_two (u := assertReset { s with inputs := .engine :: rest }) (step_of_cons hinputs)
    ((step_of_engineIsNext (.inr rfl)).trans (engineTurn_of_idle rfl))

/-- Settles O15: the orders are the branches of `ordersTogether`; the later of the two events decides DONE; and reset
leaves the engine nothing to do. -/
theorem simultaneousEventsTakeOneOrder : Obligations.SimultaneousEventsTakeOneOrder := by
  refine ⟨fun acc => ordersTogether_of_ne Event.noConfusion Event.noConfusion,
    fun ev hev => ⟨ordersTogether_reset_left ev, ordersTogether_reset_right hev⟩,
    fun s v rest hreset hbusy hv => ⟨fun hinputs => ?clearFirst, fun hinputs => ?clearLast⟩,
    fun s rest hinputs => ?resetFirst⟩
  case clearFirst =>
    obtain ⟨u, hclear, -, hbusyKept, hrest⟩ := step_clearDone ⟨hreset, hinputs⟩ hv
    obtain ⟨t, hengine, hdone, hidle, -⟩ := step_engine_completes (hbusyKept.trans hbusy) hrest
    exact ⟨t, run_two hclear hengine, hdone, hidle⟩
  case clearLast =>
    obtain ⟨u, hengine, -, hidle, hresetKept, hrest⟩ := step_engine_completes hbusy hinputs
    obtain ⟨t, hclear, hdone, hbusyKept, -⟩ := step_clearDone ⟨hresetKept.trans hreset, hrest⟩ hv
    exact ⟨t, run_two hengine hclear, hdone, hbusyKept.trans hidle⟩
  case resetFirst => exact ⟨_, run_reset_engine hinputs, rfl, assertReset_done _⟩

end Sys2Proof.Proofs
end

section
/-! PROOFS. Reset and hazards (70_reset_and_hazards.md): the issue of a command (R210), what stands between an issue and
its completion (R213, R214), the two ways WERR falls, and the idle block reset leaves behind (R202). -/

namespace Sys2Proof.Proofs

open Sys2Proof.Machine Sys2Proof.Safety Sys2Proof.Laws

/-! ### The issue (R210) -/

theorem irq_of_done_eq_false {s : State} (h : s.done = false) : irq s = false := by
  rw [irq, h, Bool.and_false]

/-- Settles O11: the write is the issue (`step_issue`), which takes any word and clears DONE. -/
theorem writingCmdWhileIdleIssues : Obligations.WritingCmdWhileIdleIssues :=
  fun _ _ _ hnext hidle => ⟨step_issue hnext hidle, irq_of_done_eq_false rfl⟩

/-! ### The results while busy (R213) -/

theorem statusWord_errcode (s : State) : (statusWord s).extractLsb' 8 4 = s.errcode := by
  apply BitVec.eq_of_getLsbD_eq
  intro i hi
  interval_cases i <;> simp [statusWord]

theorem statusWord_done (s : State) : (statusWord s).getLsbD 1 = s.done := by
  simp [statusWord]

theorem statusWord_stp (s : State) : (statusWord s).getLsbD 3 = s.stp := by
  simp [statusWord]

theorem statusWord_stf (s : State) : (statusWord s).getLsbD 4 = s.stf := by
  simp [statusWord]

theorem KeepsPending.sameResults {s u : State} (h : KeepsPending s u) : sameResults s u :=
  ⟨h.r, h.ord, h.strength, h.safe, h.stp, h.stf⟩

/-- The result registers read the same where they hold the same. -/
theorem readReg_of_sameResults {s u : State} (h : sameResults s u) :
    readReg .strength u = readReg .strength s ∧ readReg .verdict u = readReg .verdict s ∧
    (∀ j, readReg (.data .r j) u = readReg (.data .r j) s) ∧
    (∀ j, readReg (.data .ord j) u = readReg (.data .ord j) s) := by
  obtain ⟨hr, hord, hstrength, hsafe, -, -⟩ := h
  exact ⟨congrArg (BitVec.setWidth 32) hstrength, congrArg bitWord hsafe, fun j => congrArg (getWord · j) hr,
    fun j => congrArg (getWord · j) hord⟩

/-- Settles O12: the run ends at the state `run_issuedThen` gives, which holds what the issue left: the earlier results,
and ERRCODE and DONE at 0. -/
theorem resultsAreStableWhileBusy : Obligations.ResultsAreStableWhileBusy := by
  intro s w accs rest hissued
  obtain ⟨u, hrun, hinputs, hkept⟩ := run_issuedThen hissued
  have hresults : sameResults s u := hkept.sameResults
  have herrcode : u.errcode = 0 := hkept.errcode
  have hdone : u.done = false := hkept.done rfl
  obtain ⟨hstrength, hverdict, hr, hord⟩ := readReg_of_sameResults hresults
  exact ⟨u, hrun 0, hinputs, hkept.busy, hresults, herrcode, hdone, hstrength, hverdict, hr, hord,
    (statusWord_errcode u).trans herrcode, (statusWord_done u).trans hdone, (statusWord_stp u).trans hkept.stp,
    (statusWord_stf u).trans hkept.stf⟩

/-! ### WERR (R214) -/

theorem engineTurn_werr {s t : State} (h : engineTurn s = .next t) : t.werr = s.werr := by
  rcases engineTurn_cases s with ⟨-, hturn⟩ | ⟨-, -, -, hturn⟩ | ⟨-, i, -, hturn⟩
  · obtain rfl := Host.Outcome.next.inj (hturn.symm.trans h)
    rfl
  · obtain rfl := Host.Outcome.next.inj (hturn.symm.trans h)
    rfl
  · obtain ⟨-, -, -, -, -, -, -, -, hwerr, -⟩ := exec_frame (hturn.symm.trans h)
    exact hwerr

theorem whenIdle_werr {s next : State} (hset : s.werr = true) (hnext : next.werr = s.werr) :
    (whenIdle s next).werr = true := by
  rw [whenIdle]
  split
  · rfl
  · exact hnext.trans hset

/-- A write of any word but STATUS leaves a set WERR set: a dropped write sets it, no other looks at it. -/
theorem writeReg_werr {w : RegWord} (hw : w ≠ .status) (v : Word) {s : State} (hset : s.werr = true) :
    (writeReg w v s).werr = true := by
  cases w with
  | status => exact absurd rfl hw
  | cmd => exact whenIdle_werr hset rfl
  | thresh => exact whenIdle_werr hset rfl
  | data x j =>
    cases x with
    | a => exact whenIdle_werr hset rfl
    | b => exact whenIdle_werr hset rfl
    | e => exact whenIdle_werr hset rfl
    | r => exact hset
    | ord => exact hset
  | id => exact hset
  | ctrl => exact hset
  | strength => exact hset
  | verdict => exact hset

/-- A write that clears WERR is a write of 1 to STATUS bit 5. -/
theorem writeReg_clears_werr {w : RegWord} {v : Word} {s : State} (hset : s.werr = true)
    (hclear : (writeReg w v s).werr = false) : w = .status ∧ v.getLsbD 5 = true := by
  by_cases hw : w = .status
  · subst hw
    have hbit : (s.werr && !v.getLsbD 5) = false := hclear
    exact ⟨rfl, by simpa [hset] using hbit⟩
  · exact absurd (hclear.symm.trans (writeReg_werr hw v hset)) Bool.false_ne_true

/-- In reset or out of it, the only access that clears WERR is a legal write of 1 to STATUS bit 5. -/
theorem hostAccess_clears_werr {acc : Access} {s : State} (hset : s.werr = true)
    (hclear : (hostAccess acc s).werr = false) :
    ∃ v, acc = write32 (offsetOf .status) v ∧ v.getLsbD 5 = true := by
  have hkept (resp : BusResponse) : (respond resp s).werr ≠ false := by simp [hset]
  rw [hostAccess] at hclear
  split at hclear
  · exact absurd hclear (hkept _)
  · rcases busAccess_cases acc s with hbus | ⟨w, hoff, hwidth, hbus⟩
    · exact absurd (hbus ▸ hclear) (hkept _)
    · rw [hbus] at hclear
      obtain ⟨width, off, op⟩ := acc
      cases op with
      | read => exact absurd hclear (hkept _)
      | write v =>
        obtain ⟨rfl, hbit⟩ := writeReg_clears_werr hset hclear
        obtain rfl : off = offsetOf .status := regAt_eq_some_iff.mp hoff
        obtain rfl : width = .bits32 := hwidth
        exact ⟨v, rfl, hbit⟩

/-- WERR falls only by reset or by a write of 1 to STATUS bit 5. -/
theorem step_clears_werr {s t : State} (hstep : step s = .next t) (hset : s.werr = true) (hclear : t.werr = false) :
    (∃ rest, s.inputs = .resetAssert :: rest) ∨
    (∃ v rest, s.inputs = .host (write32 (offsetOf .status) v) :: rest ∧ v.getLsbD 5 = true) := by
  have hfell : t.werr ≠ s.werr := by simp [hset, hclear]
  rcases step_cases s with ⟨-, hturn⟩ | ⟨rest, -, hturn⟩ | ⟨acc, rest, hinputs, hhost⟩ | ⟨rest, hinputs, -⟩ |
    ⟨rest, -, hrelease⟩
  · exact absurd (engineTurn_werr (hturn.symm.trans hstep)) hfell
  · exact absurd (engineTurn_werr (hturn.symm.trans hstep)) hfell
  · obtain rfl := Host.Outcome.next.inj (hhost.symm.trans hstep)
    obtain ⟨v, rfl, hbit⟩ := hostAccess_clears_werr (s := { s with inputs := rest }) hset hclear
    exact .inr ⟨v, rest, hinputs, hbit⟩
  · exact .inl ⟨rest, hinputs⟩
  · obtain rfl := Host.Outcome.next.inj (hrelease.symm.trans hstep)
    exact absurd rfl hfell

/-- Settles O14: a busy block drops the writes taken only while idle (`writeReg_idleOnly_busy`), the other writes follow
the table of R55 idle or busy, and WERR falls as `step_clears_werr` says. -/
theorem writesWhileBusyAreDroppedWithWerr : Obligations.WritesWhileBusyAreDroppedWithWerr := by
  refine ⟨fun s off v rest hnext hbusy => ?writes, fun s t hstep hset hclear => step_clears_werr hstep hset hclear⟩
  obtain ⟨hanyTime, -, hreadOnly, -⟩ := writesFollowTheRegisterTable s off v rest hnext
  refine ⟨fun hoff => ?dropped, hanyTime, hreadOnly⟩
  obtain ⟨w, hw, rfl⟩ := List.mem_map.mp (idleOnlyOffsets_eq ▸ hoff)
  rw [step_write32_answered hnext, writeReg_idleOnly_busy hw v hbusy]

/-! ### After reset (R202) -/

/-- The engine has nothing to do in an idle block, however many turns it has (R211). -/
theorem run_engineTurns_of_idle (n : Nat) {s : State} (hidle : s.busy = false) :
    Host.Core.run core n { s with inputs := List.replicate n .engine } = .next { s with inputs := [] } := by
  induction n with
  | zero => rfl
  | succ n ih =>
    have hturn : step { s with inputs := List.replicate (n + 1) .engine } =
        .next { s with inputs := List.replicate n .engine } :=
      (step_of_engineIsNext (.inr rfl)).trans (engineTurn_of_idle hidle)
    exact (run_succ_of_next hturn).trans ih

/-- Reset asserted and released leaves the reset values and the rest of the schedule. -/
theorem run_reset_release {s : State} {rest : List Event} (n : Nat)
    (hinputs : s.inputs = .resetAssert :: .resetRelease :: rest) :
    Host.Core.run core (n + 2) s =
      Host.Core.run core n { State.reset with inputs := rest, responses := s.responses } := by
  have hrelease : step (assertReset { s with inputs := .resetRelease :: rest }) =
      .next (releaseReset (assertReset { s with inputs := rest })) :=
    step_of_cons (s := assertReset { s with inputs := .resetRelease :: rest }) rfl
  exact (run_succ_of_next (step_of_cons hinputs)).trans (run_succ_of_next hrelease)

/-- Settles O18: reset leaves BUSY at 0, so the engine's turns change nothing (`run_engineTurns_of_idle`), although CMD
holds the word of NOP. -/
theorem resetIssuesNothing : Obligations.ResetIssuesNothing := by
  refine fun s n hinputs => ⟨?run, reset_cmd_eq_encode_nop ▸ decode_encode .nop, rfl, rfl⟩
  rw [run_reset_release n hinputs]
  exact run_engineTurns_of_idle n (s := { State.reset with responses := s.responses }) rfl

end Sys2Proof.Proofs
end

section
/-! PROOFS. The words of the commands (30_encoding.md): a word below 8 is the word of one command and no other word
decodes to one (R72, R73); mnemonics (R76); and the step that runs the decoded command (R211). -/

namespace Sys2Proof.Proofs

open Sys2Proof.Machine Sys2Proof.Safety Sys2Proof.Laws

/-! ### The eight words and no others (R72, R73) -/

theorem exists_opcode_of_lt_eight {n : Nat} (h : n < 8) : ∃ i, (opcodeOf i).toNat = n := by
  interval_cases n
  · exact ⟨.nop, rfl⟩
  · exact ⟨.gfmul, rfl⟩
  · exact ⟨.gfsqr, rfl⟩
  · exact ⟨.gfexp, rfl⟩
  · exact ⟨.gford, rfl⟩
  · exact ⟨.gfstr, rfl⟩
  · exact ⟨.gfjdg, rfl⟩
  · exact ⟨.selftest, rfl⟩

/-- A word that decodes to a command is below 8, for a larger one is ILLEGAL; so it is the word of some command,
which decodes to that one only. -/
theorem eq_encode_of_decode {w : Word} {i : Instr} (h : decode w = .command i) : w = encode i := by
  have hsmall : w.toNat < 8 := by
    by_contra hlarge
    obtain ⟨why, hillegal⟩ := decode_illegal_of_fields (illegal_fields_of_seven_lt (w := w) (by omega))
    exact Decoded.noConfusion (h.symm.trans hillegal)
  obtain ⟨j, hj⟩ := exists_opcode_of_lt_eight hsmall
  obtain rfl : j = i := Decoded.command.inj ((decode_of_toNat_eq_opcode j hj.symm).symm.trans h)
  exact BitVec.eq_of_toNat_eq (hj.symm.trans (encode_toNat j).symm)

/-- Settles O1: one direction is `eq_encode_of_decode`, the other `decode_encode`. -/
theorem decodeAgreesWithEncode : Obligations.DecodeAgreesWithEncode :=
  fun _ i _ => ⟨eq_encode_of_decode, fun hw => hw ▸ decode_encode i⟩

/-- Settles O3: five of the words are those of their commands, the other three have a field out of format C. -/
theorem writtenOutWordsDecode : Obligations.WrittenOutWordsDecode :=
  ⟨decode_encode .nop, decode_encode .gfmul, decode_encode .gfexp, decode_encode .gfjdg, decode_encode .selftest,
    decodeOp_of_reserved 8 (by decide), by decide, by decide⟩

/-! ### Mnemonics (R76) -/

/-- The statement made of every command as syntax, for a command as a variable. -/
theorem fitsFormatC (i : Instr) : FitsFormatC.Statement i := by
  cases i with
  | nop => exact FitsFormatC.nop
  | gfmul => exact FitsFormatC.gfmul
  | gfsqr => exact FitsFormatC.gfsqr
  | gfexp => exact FitsFormatC.gfexp
  | gford => exact FitsFormatC.gford
  | gfstr => exact FitsFormatC.gfstr
  | gfjdg => exact FitsFormatC.gfjdg
  | selftest => exact FitsFormatC.selftest

theorem commandNamed_mnemonicOf (i : Instr) : commandNamed (mnemonicOf i).toList = some i := by
  obtain ⟨-, -, -, hnamed⟩ := fitsFormatC i
  exact hnamed

/-- Case is not significant: a name is looked up by its capitals. -/
theorem commandNamed_of_toUpper_eq {name name' : List Char} (h : name.map Char.toUpper = name'.map Char.toUpper) :
    commandNamed name = commandNamed name' := by
  rw [commandNamed, commandNamed, h]

theorem mnemonicOf_toLower_toUpper (i : Instr) :
    ((mnemonicOf i).toList.map Char.toLower).map Char.toUpper = (mnemonicOf i).toList.map Char.toUpper := by
  cases i <;> decide

/-- Settles O5: the mnemonic names its command (R76), and its small letters have the same capitals. -/
theorem mnemonicsAssembleInEitherCase : Obligations.MnemonicsAssembleInEitherCase := by
  intro i
  have hnamed := commandNamed_mnemonicOf i
  have hsmall := (commandNamed_of_toUpper_eq (mnemonicOf_toLower_toUpper i)).trans hnamed
  exact ⟨congrArg (Option.map encode) hnamed, congrArg (Option.map encode) hsmall⟩

/-! ### The step runs the decoded command (R211) -/

/-- Settles O6: the command's arm of the engine's turn. -/
theorem stepRunsTheDecodedCommand : Obligations.StepRunsTheDecodedCommand :=
  fun _ _ _ hnext hbusy hdecode _ => step_command hnext hbusy hdecode

theorem decode_of_decodedCommand {d : Decoded} {i : Instr} (h : decodedCommand d = some i) : d = .command i := by
  cases d with
  | command j => exact congrArg _ (Option.some.inj h)
  | illegal why => cases h

/-- Settles O7: the placed word is the low 32 bits of the table word, which the decoder reads; so the next step is
`step_command`. -/
theorem placedWordRunsInTheNextStep : Obligations.PlacedWordRunsInTheNextStep := by
  intro s w i hw
  have hmod : BitVec.ofNat 32 (w % 2 ^ 32) = BitVec.ofNat 32 w := by
    apply BitVec.eq_of_toNat_eq; simp
  have hplaced : s.withFetchWord 32 w = placeCommand (BitVec.ofNat 32 w) s := by
    rw [State.withFetchWord, hmod]
  have hdecode : decode (BitVec.ofNat 32 w) = .command i := by
    rw [decodeTableWord, if_pos (Nat.mod_lt _ (by norm_num)), hmod] at hw
    exact decode_of_decodedCommand hw
  rw [hplaced]
  exact ⟨step_command (.inl ⟨rfl, rfl⟩) rfl hdecode, rfl, rfl⟩

end Sys2Proof.Proofs
end

section
/-! PROOFS. The laws of the field (40_gf128_arithmetic.md section 1) and GFEXP (R108), read off the quotient ring. -/

namespace Sys2Proof.Proofs

open Sys2Proof.Machine Sys2Proof.Safety Sys2Proof.Laws Polynomial

/-! ### The laws of gf_mul (R101) -/

theorem residue_eq_zero_iff {x : Elem} : residue x = 0 ↔ x = 0 :=
  ⟨eq_zero_of_residue_eq_zero, fun h => h ▸ residue_zero⟩

/-- A polynomial of smaller degree than the modulus is the remainder of every polynomial of its class. -/
theorem eq_modByMonic_of_mk_eq {R : Type*} [CommRing R] [Nontrivial R] {m p q : R[X]} (hm : m.Monic)
    (hdegree : p.degree < m.degree) (h : AdjoinRoot.mk m p = AdjoinRoot.mk m q) : p = q %ₘ m := by
  rw [← modByMonic_eq_of_dvd_sub hm (AdjoinRoot.mk_eq_mk.mp h), (modByMonic_eq_self_iff hm).mpr hdegree]

theorem reductionPoly_monic : reductionPoly.Monic := by
  unfold reductionPoly
  monicity!

theorem poly_gfMul (x y : Elem) : poly (gfMul x y) = (poly x * poly y) %ₘ reductionPoly := by
  refine eq_modByMonic_of_mk_eq reductionPoly_monic (poly_degree_lt_reductionPoly _) ?_
  rw [map_mul]
  exact residue_gfMul x y

/-- Settles O41: GFMUL leaves gf_mul of its operands, which is `poly_gfMul`. -/
theorem gfmulMultipliesPolynomials : Obligations.GfmulMultipliesPolynomials :=
  fun s => ⟨_, exec_gfmul s, poly_gfMul s.a s.b⟩

theorem gfMul_comm (x y : Elem) : gfMul x y = gfMul y x := residue_injective (by simp [mul_comm])

theorem gfMul_assoc (x y z : Elem) : gfMul (gfMul x y) z = gfMul x (gfMul y z) :=
  residue_injective (by simp [mul_assoc])

/-- Settles O42: the residues are a commutative ring. -/
theorem gfMulIsACommutativeMonoid : Obligations.GfMulIsACommutativeMonoid :=
  ⟨gfMul_comm, gfMul_assoc, fun x => ⟨gfMul_gfOne x, gfOne_gfMul x⟩, fun x => ⟨gfMul_zero x, zero_gfMul x⟩⟩

/-- Settles O43: the residues are a field, by Rabin's test (`reductionPoly_irreducible`). -/
theorem gfMulHasNoZeroDivisors : Obligations.GfMulHasNoZeroDivisors := by
  intro x y
  have : Fact (Irreducible reductionPoly) := ⟨reductionPoly_irreducible⟩
  rw [← residue_eq_zero_iff, residue_gfMul, mul_eq_zero, residue_eq_zero_iff, residue_eq_zero_iff]

/-! ### GFEXP (R108) -/

theorem exec_gfexp (s : State) : exec .gfexp s = .next (finishField (gfExp s.a s.e.toNat) s) := rfl

theorem gfExp_zero_base {n : Nat} (hn : n ≠ 0) : gfExp 0 n = 0 :=
  residue_injective (by rw [residue_gfExp, residue_zero, zero_pow hn])

theorem gfExp_x_128 : gfExp 0x40000000000000000000000000000000 128 = 0xE1000000000000000000000000000000 := by
  decide +kernel

/-- Settles O45: the arm of GFEXP is its result and frame, and the corner cases are laws of gf_exp. -/
theorem gfexpResult : Obligations.GfexpResult := by
  refine ⟨by decide, fun s => by rw [exec_gfexp, finishField_eq], fun s => ⟨_, exec_gfexp s, ?zero, ?zeroBase, ?one⟩,
    gfExp_x_128⟩
  case zero => intro he; rw [finishField_r, he]; exact gfExp_zero s.a
  case zeroBase =>
    intro ha he
    have hn : s.e.toNat ≠ 0 := fun h => he (BitVec.eq_of_toNat_eq h)
    rw [finishField_r, ha, gfExp_zero_base hn]
  case one => intro he; rw [finishField_r, he]; exact gfExp_one s.a

/-- Settles O47: the exponent is NGRP, and x^NGRP is ONE for x ≠ 0. -/
theorem gfexpToTheGroupOrderIsOne : Obligations.GfexpToTheGroupOrderIsOne := by
  intro s ha he
  have hexponent : s.e.toNat = groupOrder := by rw [he]; rfl
  refine ⟨_, exec_gfexp s, residue_injective ?_⟩
  rw [finishField_r, residue_gfExp, hexponent, residue_pow_groupOrder ha, residue_gfOne]

end Sys2Proof.Proofs
end

section
/-! PROOFS. The gated commands (41_order_oracle.md, 42_strength_evaluator.md, 43_safety_judge.md). The order
loop is exact because the Known Factorization is into primes: a factor it keeps divides the multiplicative order. -/

namespace Sys2Proof.Proofs

open Sys2Proof.Machine Sys2Proof.Safety Sys2Proof.Laws

/-! ### The Known Factorization is into primes (R120) -/

/-- The prime factors of p − 1 for the largest factor p of NGRP. -/
def lucasFactors : List Nat := List.replicate 8 2 ++ [5, 47, 373, 2998279]

theorem lucasFactors_prime : ∀ q ∈ lucasFactors, Prime q := by
  have h : ∀ q ∈ [2, 5, 47, 373, 2998279], Nat.Prime q := by norm_num
  intro q hq
  exact (h q (by simpa [lucasFactors] using hq)).prime

/-- 3 is a primitive root, by the prime factors of p − 1. -/
theorem prime_67280421310721 : Nat.Prime 67280421310721 := by
  refine lucas_primality 67280421310721 3 (by norm_num; reduce_mod_char) fun q hq hdvd => ?_
  have hprod : 67280421310721 - 1 = lucasFactors.prod := by decide
  have hmem : q ∈ lucasFactors := mem_list_primes_of_dvd_prod hq.prime lucasFactors_prime (hprod ▸ hdvd)
  have hcases : q = 2 ∨ q = 5 ∨ q = 47 ∨ q = 373 ∨ q = 2998279 := by simpa [lucasFactors] using hmem
  rcases hcases with rfl | rfl | rfl | rfl | rfl <;> (norm_num; reduce_mod_char; decide)

theorem factors_prime : ∀ p ∈ factors, Nat.Prime p := by
  simp only [factors, List.forall_mem_cons]
  exact ⟨by norm_num, by norm_num, by norm_num, by norm_num, by norm_num, by norm_num, by norm_num, by norm_num,
    prime_67280421310721, by simp⟩

/-! ### The order loop is exact (R120) -/

/-- A prime p of n divides each divisor of n that does not divide n / p. -/
theorem prime_dvd_of_not_dvd_div {p d n : Nat} (hp : p.Prime) (hpn : p ∣ n) (hd : d ∣ n) (hnot : ¬ d ∣ n / p) :
    p ∣ d := by
  by_contra hpd
  have hcoprime : d.Coprime p := ((Nat.Prime.coprime_iff_not_dvd hp).mpr hpd).symm
  exact hnot (hcoprime.dvd_of_dvd_mul_left (by rwa [Nat.mul_div_cancel' hpn]))

/-- Each factor the loop keeps divides the multiplicative order, and the factors are coprime. -/
theorem orderOver_dvd_orderOf {x : Elem} (hx : x ≠ 0) (fs : List Nat) (hcoprime : fs.Pairwise Nat.Coprime)
    (hfs : ∀ p ∈ fs, p ∈ factors) : orderOver fs x ∣ orderOf (residue x) := by
  induction fs with
  | nil => exact one_dvd _
  | cons p fs ih =>
    obtain ⟨hp, hrest⟩ := List.pairwise_cons.mp hcoprime
    obtain ⟨hpmem, hmem⟩ := List.forall_mem_cons.mp hfs
    have hdvd := ih hrest hmem
    rw [orderOver_cons]
    split
    case isFalse => rwa [one_mul]
    case isTrue hkept =>
      have hapart : p.Coprime (orderOver fs x) :=
        (Nat.coprime_list_prod_right_iff.mpr hp).coprime_dvd_right (orderOver_dvd_prod x fs)
      have hgroup : orderOf (residue x) ∣ groupOrder := orderOf_dvd_of_pow_eq_one (residue_pow_groupOrder hx)
      have hpdvd : p ∣ orderOf (residue x) :=
        prime_dvd_of_not_dvd_div (factors_prime p hpmem) (factors_prod ▸ List.dvd_prod hpmem) hgroup
          fun h => hkept (gfExp_eq_gfOne_iff.mpr h)
      exact hapart.mul_dvd_of_dvd_of_dvd hpdvd hdvd

/-- gf_order is the multiplicative order (section 1 of 41_order_oracle.md). -/
theorem gfOrder_eq_orderOf {x : Elem} (hx : x ≠ 0) : gfOrder x = orderOf (residue x) :=
  Nat.dvd_antisymm (orderOver_dvd_orderOf hx factors factors_pairwise_coprime fun _ h => h) (orderOf_dvd_gfOrder hx)

theorem gfOrder_gfOne : gfOrder gfOne = 1 := by
  rw [gfOrder_eq_orderOf (by decide), residue_gfOne, orderOf_one]

/-! ### GFORD and GFSTR past their checks (R123, R131) -/

theorem exec_gford_of_checks {s : State} (hverified : verified s) (ha : s.a ≠ 0) :
    exec .gford s = .next (complete .ok (setOrder (gfOrder s.a) s)) := by
  change execGford s = _
  rw [execGford, verifiedCheck_eq_ok.mpr hverified, orComplete_ok, zeroCheck_eq_ok.mpr ha, orComplete_ok, operandA]

theorem exec_gfstr_of_checks {s : State} (hverified : verified s) (ha : s.a ≠ 0) :
    exec .gfstr s =
      .next (complete .ok (setStrength (strengthOf (gfOrder s.a)) (setOrder (gfOrder s.a) s))) := by
  change execGfstr s = _
  rw [execGfstr, verifiedCheck_eq_ok.mpr hverified, orComplete_ok, zeroCheck_eq_ok.mpr ha, orComplete_ok, operandA]

/-- Settles O48: past the checks GFORD writes the order, which of ONE is 1. -/
theorem gfordResult : Obligations.GfordResult := by
  refine ⟨fun s hverified ha => ?result, fun s hverified hone => ⟨_, exec_gford_of_checks hverified ?nonzero, ?order⟩⟩
  case result => rw [exec_gford_of_checks hverified ha, complete_of_ok, setOrder]
  case nonzero => rw [hone]; decide
  case order => rw [complete_ord, setOrder_ord, hone, gfOrder_gfOne]; rfl

/-- Settles O49: ORD holds the order whole (`gfOrder_toNat`), and it divides every exponent that gives ONE. -/
theorem gfordGivesTheExactOrder : Obligations.GfordGivesTheExactOrder := by
  intro s hverified ha
  refine ⟨_, exec_gford_of_checks hverified ha, ?_⟩
  rw [complete_ord, setOrder_ord, gfOrder_toNat]
  refine ⟨Nat.one_le_iff_ne_zero.mpr (gfOrder_ne_zero s.a), gfExp_eq_gfOne_iff.mpr (orderOf_dvd_gfOrder ha),
    fun k hk hone => Nat.le_of_dvd hk ?_⟩
  rw [gfOrder_eq_orderOf ha]
  exact gfExp_eq_gfOne_iff.mp hone

/-! ### Strength (R130) -/

/-- An order of 2^126 or more is NGRP divided by 1, 2 or 3, and NGRP is odd. -/
theorem gfOrder_of_two_pow_126_le {x : Elem} (h : 2 ^ 126 ≤ gfOrder x) :
    gfOrder x = groupOrder ∨ gfOrder x = groupOrder / 3 := by
  obtain ⟨q, hq⟩ := gfOrder_dvd x
  have hgroup : groupOrder = 2 ^ 128 - 1 := rfl
  have hsmall : q < 4 := by
    by_contra hlarge
    have hmul : gfOrder x * 4 ≤ gfOrder x * q := Nat.mul_le_mul_left _ (by omega)
    omega
  interval_cases q <;> omega

theorem strengthOf_spec {o : Nat} (ho : o ≠ 0) : 2 ^ strengthOf o ≤ o ∧ o < 2 ^ (strengthOf o + 1) := by
  rw [strengthOf_of_pos ho]
  exact ⟨Nat.log2_self_le ho, Nat.lt_log2_self⟩

theorem le_strengthOf_iff {o : Nat} (ho : o ≠ 0) (n : Nat) : n ≤ strengthOf o ↔ 2 ^ n ≤ o := by
  rw [strengthOf_of_pos ho]
  exact Nat.le_log2 ho

/-- Settles O52: the logarithm's own bounds (`le_strengthOf_iff`), and `gfOrder_of_two_pow_126_le`. -/
theorem strengthIsFloorLog2 : Obligations.StrengthIsFloorLog2 := by
  refine ⟨fun o hpos hle => ?bounds, by decide, by decide, by decide, by decide, by decide, by decide, by decide,
    by decide, by decide, fun x _ hstrength => ?orders⟩
  case bounds =>
    have ho : o ≠ 0 := by omega
    obtain ⟨hlow, hhigh⟩ := strengthOf_spec ho
    have h1 := le_strengthOf_iff ho 1
    have h127 := le_strengthOf_iff ho 127
    have h128 := le_strengthOf_iff ho 128
    exact ⟨hlow, hhigh, by omega, by omega, by omega⟩
  case orders => exact gfOrder_of_two_pow_126_le ((le_strengthOf_iff (gfOrder_ne_zero x) 126).mp hstrength)

/-- The strength of an order fits the 8 bits of STRENGTH.S (R31). -/
theorem strengthOf_gfOrder_toNat (x : Elem) :
    (BitVec.ofNat 8 (strengthOf (gfOrder x))).toNat = strengthOf (gfOrder x) :=
  Nat.mod_eq_of_lt (by have := strengthOf_gfOrder_le x; omega)

/-- Settles O53: past the checks GFSTR writes the order and its strength, each of which fits its register. -/
theorem gfstrResult : Obligations.GfstrResult := by
  intro s hverified ha
  refine ⟨_, exec_gfstr_of_checks hverified ha, ?result, ?strength, ?bound, fun hone => ?one⟩
  case result => rw [complete_of_ok, setStrength, setOrder]
  case strength =>
    rw [complete_strength, setStrength_strength, strengthOf_gfOrder_toNat, complete_ord, setStrength_ord, setOrder_ord,
      gfOrder_toNat]
  case bound =>
    rw [complete_strength, setStrength_strength, strengthOf_gfOrder_toNat]
    exact strengthOf_gfOrder_le s.a
  case one =>
    rw [hone, gfOrder_gfOne]
    exact ⟨rfl, rfl⟩

/-! ### GFJDG (R141) -/

/-- Settles O55: past the checks GFJDG writes the order, its strength and the verdict of the judge on the two. -/
theorem gfjdgResult : Obligations.GfjdgResult := by
  intro s hverified ha hlow hhigh
  refine ⟨_, exec_gfjdg_of_checks hverified ⟨hlow, hhigh⟩ ha, ?result, ?strength, ?verdict⟩
  case result => rw [complete_of_ok, setVerdict, setStrength, setOrder]
  case strength =>
    rw [complete_strength, setVerdict_strength, setStrength_strength, strengthOf_gfOrder_toNat, complete_ord,
      setVerdict_ord, setStrength_ord, setOrder_ord, gfOrder_toNat]
  case verdict =>
    rw [complete_safe, setVerdict_safe, complete_strength, setVerdict_strength, setStrength_strength,
      strengthOf_gfOrder_toNat]
    exact judge_eq_true_iff

/-- A threshold out of 1 to 128 is turned away before the zero check (R140, R183). -/
theorem exec_gfjdg_of_bad_threshold {s : State} (hverified : verified s)
    (hthresh : s.thresh.toNat = 0 ∨ 128 < s.thresh.toNat) : exec .gfjdg s = .next (complete .thresh s) := by
  change execGfjdg s = _
  rw [execGfjdg, verifiedCheck_eq_ok.mpr hverified, orComplete_ok, thresholdCheck_of_out hthresh,
    orComplete_of_ne (by decide)]

/-- Settles O56: the threshold check rejects and never clamps; at 128 the judge compares with a strength of at most
127; and the judge is the order of the naturals. -/
theorem thresholdIsCheckedNotClamped : Obligations.ThresholdIsCheckedNotClamped := by
  refine ⟨fun _ _ => judge_eq_true_iff, fun s hverified hout => ?rejected, fun s hverified ha hthresh => ?limit,
    fun n n' t t' hn ht hsafe => ?monotonic⟩
  case rejected => exact exec_gfjdg_of_bad_threshold hverified hout
  case limit =>
    have hchecks : 1 ≤ s.thresh.toNat ∧ s.thresh.toNat ≤ 128 := by omega
    refine ⟨_, exec_gfjdg_of_checks hverified hchecks ha, rfl, ?_⟩
    have hstrength := strengthOf_gfOrder_le s.a
    rw [complete_safe, setVerdict_safe, judge_eq_false_iff]
    omega
  case monotonic =>
    have hjudge : t ≤ n := judge_eq_true_iff.mp hsafe
    exact ⟨judge_eq_true_iff.mpr (hjudge.trans hn), judge_eq_true_iff.mpr (ht.trans hjudge)⟩

/-! ### The checks that turn GFORD and GFSTR away (R122, R123, R131) -/

theorem orComplete_verifiedCheck_of_stf {s : State} (h : s.stf = true) (t : State) :
    orComplete (verifiedCheck s) s t = complete .selftest s := by
  rw [verifiedCheck_of_stf h, orComplete_of_ne (by decide)]

theorem orComplete_verifiedCheck_of_not_stp {s : State} (hstf : s.stf = false) (hstp : s.stp = false) (t : State) :
    orComplete (verifiedCheck s) s t = complete .notVerified s := by
  rw [verifiedCheck_of_not_stp hstf hstp, orComplete_of_ne (by decide)]

theorem orComplete_checks_of_zero {s : State} (hverified : verified s) (ha : s.a = 0) (t : State) :
    orComplete (verifiedCheck s) s (orComplete (zeroCheck s) s t) = complete .zero s := by
  rw [verifiedCheck_eq_ok.mpr hverified, orComplete_ok, zeroCheck_of_zero ha, orComplete_of_ne (by decide)]

/-- Settles O54: both commands begin with the same two checks. -/
theorem gfordAndGfstrErrorsWriteOnlyStatus : Obligations.GfordAndGfstrErrorsWriteOnlyStatus := by
  refine fun s i hi => ⟨fun hstf => ?failed, fun hstf hstp => ?notVerified, fun hverified ha => ?zero⟩
  case failed =>
    rcases hi with rfl | rfl <;> exact congrArg Host.Outcome.next (orComplete_verifiedCheck_of_stf hstf _)
  case notVerified =>
    rcases hi with rfl | rfl <;>
      exact congrArg Host.Outcome.next (orComplete_verifiedCheck_of_not_stp hstf hstp _)
  case zero =>
    rcases hi with rfl | rfl <;> exact congrArg Host.Outcome.next (orComplete_checks_of_zero hverified ha _)

end Sys2Proof.Proofs
end

section
/-! PROOFS. SELFTEST (44_selftest_and_control.md): the verdicts on the two constants are evaluated, so STF is never
set; and with STF set nothing but reset opens the gate. -/

namespace Sys2Proof.Proofs

open Sys2Proof.Machine Sys2Proof.Safety Sys2Proof.Laws

/-! ### The two constants (R153) -/

theorem strengthOf_gfOrder_selftestWeak : strengthOf (gfOrder selftestWeak) = 93 := by decide +kernel

theorem strengthOf_gfOrder_selftestSafe : strengthOf (gfOrder selftestSafe) = 127 := by decide +kernel

theorem selftestVerdict_selftestWeak : selftestVerdict selftestWeak = false := by
  rw [selftestVerdict, strengthOf_gfOrder_selftestWeak]
  rfl

theorem selftestVerdict_selftestSafe : selftestVerdict selftestSafe = true := by
  rw [selftestVerdict, strengthOf_gfOrder_selftestSafe]
  rfl

theorem exec_selftest_of_not_stf {s : State} (hstf : s.stf = false) : exec .selftest s = .next (selftestPass s) := by
  change execSelftest s = _
  rw [execSelftest, hstf, if_neg Bool.false_ne_true,
    if_pos ⟨selftestVerdict_selftestWeak, selftestVerdict_selftestSafe⟩]

/-- Settles O58: both constants get the verdicts R154 asks for. -/
theorem selftestPasses : Obligations.SelftestPasses := by
  intro s hstf
  rw [exec_selftest_of_not_stf hstf, selftestPass, complete_of_ok]

/-! ### STF (R154, R155) -/

/-- SELFTEST is the one command that writes STF, and it sets it only where a constant is judged wrongly. -/
theorem exec_keeps_stf {i : Instr} {s t : State} (h : exec i s = .next t) : t.stf = s.stf := by
  by_cases hi : i = .selftest
  · subst hi
    cases hstf : s.stf with
    | true =>
      obtain rfl := Host.Outcome.next.inj ((exec_selftest_of_stf hstf).symm.trans h)
      exact hstf
    | false =>
      obtain rfl := Host.Outcome.next.inj ((exec_selftest_of_not_stf hstf).symm.trans h)
      exact hstf
  · obtain ⟨-, -, -, -, hselftest⟩ := exec_keeps_unlisted h
    exact (hselftest hi).2

theorem engineTurn_keeps_stf {s t : State} (h : engineTurn s = .next t) : t.stf = s.stf := by
  rcases engineTurn_cases s with ⟨-, hturn⟩ | ⟨-, -, -, hturn⟩ | ⟨-, i, -, hturn⟩
  · obtain rfl := Host.Outcome.next.inj (hturn.symm.trans h)
    rfl
  · obtain rfl := Host.Outcome.next.inj (hturn.symm.trans h)
    rfl
  · exact exec_keeps_stf (hturn.symm.trans h)

/-- No step writes STF but the assertion of reset, which clears it. -/
theorem step_stf {s t : State} (hstf : s.stf = false) (hstep : step s = .next t) : t.stf = false := by
  have answer {u : State} (hu : step s = .next u) : t = u := Host.Outcome.next.inj (hstep.symm.trans hu)
  rcases step_cases s with ⟨-, hs⟩ | ⟨rest, -, hs⟩ | ⟨acc, rest, -, hs⟩ | ⟨rest, -, hs⟩ | ⟨rest, -, hs⟩
  · exact (engineTurn_keeps_stf (hs.symm.trans hstep)).trans hstf
  · exact (engineTurn_keeps_stf (hs.symm.trans hstep)).trans hstf
  · obtain ⟨-, -, -, -, -, hkept, -, -⟩ := hostAccess_frame acc { s with inputs := rest }
    rw [answer hs]
    exact hkept.trans hstf
  · rw [answer hs]
    rfl
  · rw [answer hs]
    exact hstf

/-- Settles O60: the constants' strengths are evaluated, and no step sets STF (`step_stf`). -/
theorem stfIsNeverSet : Obligations.StfIsNeverSet :=
  ⟨strengthOf_gfOrder_selftestWeak, strengthOf_gfOrder_selftestSafe, rfl, fun _ _ => step_stf⟩

/-! ### After a failure (R122, R154) -/

/-- What a failed self-test holds shut: the self-test bits and the gated results are the same. -/
def sameGated (s t : State) : Prop :=
  t.stf = s.stf ∧ t.stp = s.stp ∧ t.ord = s.ord ∧ t.strength = s.strength ∧ t.safe = s.safe

/-- With STF set, the gated commands are turned away by their first check, SELFTEST by its own, and the rest do not
write what the gate guards. -/
theorem exec_of_stf {i : Instr} {s t : State} (hstf : s.stf = true) (h : exec i s = .next t) : sameGated s t := by
  have answer {u : State} (hu : exec i s = .next u) : t = u := Host.Outcome.next.inj (h.symm.trans hu)
  have turnedAway (next : State) : Host.Outcome.next (φ := Fault) (ρ := Refusal)
      (orComplete (verifiedCheck s) s next) = .next (complete .selftest s) :=
    congrArg Host.Outcome.next (orComplete_verifiedCheck_of_stf hstf next)
  cases i with
  | nop => rw [answer rfl]; exact ⟨rfl, rfl, rfl, rfl, rfl⟩
  | gfmul => rw [answer rfl]; exact ⟨rfl, rfl, rfl, rfl, rfl⟩
  | gfsqr => rw [answer rfl]; exact ⟨rfl, rfl, rfl, rfl, rfl⟩
  | gfexp => rw [answer rfl]; exact ⟨rfl, rfl, rfl, rfl, rfl⟩
  | gford => rw [answer (turnedAway _)]; exact ⟨rfl, rfl, rfl, rfl, rfl⟩
  | gfstr => rw [answer (turnedAway _)]; exact ⟨rfl, rfl, rfl, rfl, rfl⟩
  | gfjdg => rw [answer (turnedAway _)]; exact ⟨rfl, rfl, rfl, rfl, rfl⟩
  | selftest => rw [answer (exec_selftest_of_stf hstf)]; exact ⟨rfl, rfl, rfl, rfl, rfl⟩

theorem engineTurn_of_stf {s t : State} (hstf : s.stf = true) (h : engineTurn s = .next t) : sameGated s t := by
  rcases engineTurn_cases s with ⟨-, hturn⟩ | ⟨-, -, -, hturn⟩ | ⟨-, i, -, hturn⟩
  · obtain rfl := Host.Outcome.next.inj (hturn.symm.trans h)
    exact ⟨rfl, rfl, rfl, rfl, rfl⟩
  · obtain rfl := Host.Outcome.next.inj (hturn.symm.trans h)
    exact ⟨rfl, rfl, rfl, rfl, rfl⟩
  · exact exec_of_stf hstf (hturn.symm.trans h)

theorem step_of_stf {s t : State} (hstf : s.stf = true) (hstep : step s = .next t)
    (hnot : ∀ rest, s.inputs ≠ .resetAssert :: rest) : sameGated s t := by
  have answer {u : State} (hu : step s = .next u) : t = u := Host.Outcome.next.inj (hstep.symm.trans hu)
  rcases step_cases s with ⟨-, hs⟩ | ⟨rest, -, hs⟩ | ⟨acc, rest, -, hs⟩ | ⟨rest, hinputs, -⟩ | ⟨rest, -, hs⟩
  · exact engineTurn_of_stf hstf (hs.symm.trans hstep)
  · exact engineTurn_of_stf (s := { s with inputs := rest }) hstf (hs.symm.trans hstep)
  · obtain ⟨-, hord, hstrength, hsafe, hstp, hstfKept, -, -⟩ := hostAccess_frame acc { s with inputs := rest }
    rw [answer hs]
    exact ⟨hstfKept, hstp, hord, hstrength, hsafe⟩
  · exact absurd hinputs (hnot rest)
  · rw [answer hs]
    exact ⟨rfl, rfl, rfl, rfl, rfl⟩

/-- Settles O59: SELFTEST looks at STF first, and `step_of_stf`. -/
theorem selftestFailureLastsUntilReset : Obligations.SelftestFailureLastsUntilReset := by
  refine ⟨fun s hstf => ?refused, fun s t hstf hstep hnot => ?kept⟩
  case refused => exact exec_selftest_of_stf hstf
  case kept =>
    obtain ⟨hstfKept, hstp, hord, hstrength, hsafe⟩ := step_of_stf hstf hstep hnot
    exact ⟨hstfKept.trans hstf, hstp, hord, hstrength, hsafe⟩

end Sys2Proof.Proofs
end

section
/-! PROOFS. Purity (00_scope.md section 6): the code of a gated command and, where it is 0, its results are functions of
the registers its rule names. -/

namespace Sys2Proof.Proofs

open Sys2Proof.Machine Sys2Proof.Safety Sys2Proof.Laws

/-! ### The codes of the gated commands (R183) -/

theorem exec_gford_errcode {s t : State} (h : exec .gford s = .next t) :
    t.errcode = if s.stf then 4 else if s.stp = false then 5 else if s.a = 0 then 3 else 0 := by
  obtain rfl := Host.Outcome.next.inj h
  exact verified_zero_checks_errcode s _

theorem exec_gfstr_errcode {s t : State} (h : exec .gfstr s = .next t) :
    t.errcode = if s.stf then 4 else if s.stp = false then 5 else if s.a = 0 then 3 else 0 := by
  obtain rfl := Host.Outcome.next.inj h
  exact verified_zero_checks_errcode s _

theorem exec_gfjdg_errcode {s t : State} (h : exec .gfjdg s = .next t) :
    t.errcode = if s.stf then 4 else if s.stp = false then 5
      else if s.thresh.toNat = 0 ∨ 128 < s.thresh.toNat then 2 else if s.a = 0 then 3 else 0 := by
  obtain rfl := Host.Outcome.next.inj h
  exact verified_threshold_zero_checks_errcode s _

/-! ### Their results with code 0 -/

/-- A check that ends a command leaves a nonzero code. -/
theorem complete_errcode_ne_zero {c : ErrCode} (hc : c ≠ .ok) (s : State) : (complete c s).errcode ≠ 0 :=
  mt errBits_eq_zero.mp hc

theorem exec_gford_ok {s t : State} (h : exec .gford s = .next t) (hok : t.errcode = 0) :
    t = complete .ok (setOrder (gfOrder s.a) s) := by
  rcases execGford_cases s with ⟨c, hc, hs⟩ | ⟨-, -, -, hs⟩
  · obtain rfl := Host.Outcome.next.inj (hs.symm.trans h)
    exact absurd hok (complete_errcode_ne_zero hc s)
  · exact Host.Outcome.next.inj (h.symm.trans hs)

theorem exec_gfstr_ok {s t : State} (h : exec .gfstr s = .next t) (hok : t.errcode = 0) :
    t = complete .ok (setStrength (strengthOf (gfOrder s.a)) (setOrder (gfOrder s.a) s)) := by
  rcases execGfstr_cases s with ⟨c, hc, hs⟩ | ⟨-, -, -, hs⟩
  · obtain rfl := Host.Outcome.next.inj (hs.symm.trans h)
    exact absurd hok (complete_errcode_ne_zero hc s)
  · exact Host.Outcome.next.inj (h.symm.trans hs)

theorem exec_gfjdg_ok {s t : State} (h : exec .gfjdg s = .next t) (hok : t.errcode = 0) :
    t = complete .ok (setVerdict (judge (strengthOf (gfOrder s.a)) s.thresh.toNat)
      (setStrength (strengthOf (gfOrder s.a)) (setOrder (gfOrder s.a) s))) := by
  rcases execGfjdg_cases s with ⟨c, hc, hs⟩ | ⟨-, -, -, -, -, hs⟩
  · obtain rfl := Host.Outcome.next.inj (hs.symm.trans h)
    exact absurd hok (complete_errcode_ne_zero hc s)
  · exact Host.Outcome.next.inj (h.symm.trans hs)

/-- Settles O38: both states give a field command the same operands, and a gated one the same code by its checks and the
same results where that code is 0. -/
theorem resultsDependOnlyOnNamedOperands : Obligations.ResultsDependOnlyOnNamedOperands := by
  refine fun s s' t t' => ⟨fun h h' ha hb => ?gfmul, fun h h' ha => ?gfsqr, fun h h' ha he => ?gfexp,
    fun ha hstp hstf => ⟨fun h h' => ?gford, fun h h' => ?gfstr, fun hthresh h h' => ?gfjdg⟩⟩
  case gfmul =>
    obtain rfl := Host.Outcome.next.inj ((exec_gfmul s).symm.trans h)
    obtain rfl := Host.Outcome.next.inj ((exec_gfmul s').symm.trans h')
    rw [finishField_r, finishField_r, ha, hb]
  case gfsqr =>
    obtain rfl := Host.Outcome.next.inj ((exec_gfsqr s).symm.trans h)
    obtain rfl := Host.Outcome.next.inj ((exec_gfsqr s').symm.trans h')
    rw [finishField_r, finishField_r, ha]
  case gfexp =>
    obtain rfl := Host.Outcome.next.inj ((exec_gfexp s).symm.trans h)
    obtain rfl := Host.Outcome.next.inj ((exec_gfexp s').symm.trans h')
    rw [finishField_r, finishField_r, ha, he]
  case gford =>
    have hcode : t.errcode = t'.errcode := by rw [exec_gford_errcode h, exec_gford_errcode h', ha, hstp, hstf]
    refine ⟨hcode, fun hok => ?_⟩
    rw [exec_gford_ok h hok, exec_gford_ok h' (hcode ▸ hok), ha]
    rfl
  case gfstr =>
    have hcode : t.errcode = t'.errcode := by rw [exec_gfstr_errcode h, exec_gfstr_errcode h', ha, hstp, hstf]
    refine ⟨hcode, fun hok => ?_⟩
    rw [exec_gfstr_ok h hok, exec_gfstr_ok h' (hcode ▸ hok), ha]
    exact ⟨rfl, rfl⟩
  case gfjdg =>
    have hcode : t.errcode = t'.errcode := by
      rw [exec_gfjdg_errcode h, exec_gfjdg_errcode h', ha, hstp, hstf, hthresh]
    refine ⟨hcode, fun hok => ?_⟩
    rw [exec_gfjdg_ok h hok, exec_gfjdg_ok h' (hcode ▸ hok), ha, hthresh]
    exact ⟨rfl, rfl, rfl⟩

end Sys2Proof.Proofs
end

section
/-! PROOFS. The step (70_reset_and_hazards.md): it always answers a next state, a busy engine's turn ends its command, a
schedule ends idle; what reset does; and what sets and clears DONE (R186). -/

namespace Sys2Proof.Proofs

open Sys2Proof.Machine Sys2Proof.Safety Sys2Proof.Laws

/-! ### Every step answers a next state -/

theorem engineTurn_next (s : State) : ∃ t, engineTurn s = .next t := by
  rcases engineTurn_cases s with ⟨-, hturn⟩ | ⟨-, -, -, hturn⟩ | ⟨-, i, -, hturn⟩
  · exact ⟨_, hturn⟩
  · exact ⟨_, hturn⟩
  · obtain ⟨t, hexec⟩ := exec_next i s
    exact ⟨t, hturn.trans hexec⟩

/-- Settles O8: only the engine's turn is not a next state by definition (`engineTurn_next`). -/
theorem everyStepAnswersANextState : Obligations.EveryStepAnswersANextState := by
  intro s
  rcases step_cases s with ⟨-, hstep⟩ | ⟨rest, -, hstep⟩ | ⟨acc, rest, -, hstep⟩ | ⟨rest, -, hstep⟩ |
    ⟨rest, -, hstep⟩
  · exact hstep ▸ engineTurn_next s
  · exact hstep ▸ engineTurn_next { s with inputs := rest }
  · exact ⟨_, hstep⟩
  · exact ⟨_, hstep⟩
  · exact ⟨_, hstep⟩

/-! ### The end of a command (R181, R211) -/

theorem exec_errcode_le {i : Instr} {s t : State} (h : exec i s = .next t) : t.errcode.toNat ≤ 5 := by
  rcases exec_writes h with ⟨c, rfl⟩ | ⟨-, x, rfl⟩ | ⟨-, o, rfl⟩ | ⟨-, n, o, rfl⟩ | ⟨-, v, n, o, rfl⟩ |
    ⟨-, rfl | rfl⟩
  · exact errBits_le c
  · exact errBits_le .ok
  · exact errBits_le .ok
  · exact errBits_le .ok
  · exact errBits_le .ok
  · exact errBits_le .ok
  · exact errBits_le .selftest

/-- Settles O9: an ILLEGAL word is completed, and every command keeps the host's registers (`exec_frame`) and ends with
one of the codes 0 to 5. -/
theorem everyEngineStepEndsItsCommand : Obligations.EveryEngineStepEndsItsCommand := by
  intro s rest hnext hbusy
  rw [step_of_engineIsNext hnext]
  rcases engineTurn_of_busy (s := { s with inputs := rest }) hbusy with hturn | ⟨i, -, hturn⟩
  · exact ⟨_, hturn, by simp [errBits]⟩
  · obtain ⟨t, hexec⟩ := exec_next i { s with inputs := rest }
    obtain ⟨hidle, hdone, ha, hb, he, hthresh, hie, hcmd, hwerr, hreset, hinputs, hresponses⟩ := exec_frame hexec
    exact ⟨t, hturn.trans hexec, hidle, hdone, exec_errcode_le hexec, ha, hb, he, hthresh, hie, hwerr, hcmd, hreset,
      hinputs, hresponses⟩

/-! ### The end of a schedule (R212) -/

theorem engineTurn_ends_idle (s : State) : ∃ t, engineTurn s = .next t ∧ t.busy = false ∧ t.inputs = s.inputs := by
  cases hbusy : s.busy with
  | false => exact ⟨s, engineTurn_of_idle hbusy, hbusy, rfl⟩
  | true =>
    obtain ⟨t, hturn, -, hidle, -, hinputs⟩ := engineTurn_completes hbusy
    exact ⟨t, hturn, hidle, hinputs⟩

/-- A step takes one event off the schedule. -/
theorem step_takes_event {s : State} {ev : Event} {rest : List Event} (hinputs : s.inputs = ev :: rest) :
    ∃ t, step s = .next t ∧ t.inputs = rest := by
  have hstep := step_of_cons hinputs
  cases ev with
  | engine =>
    obtain ⟨t, hturn, -, hrest⟩ := engineTurn_ends_idle { s with inputs := rest }
    exact ⟨t, hstep.trans hturn, hrest⟩
  | host acc =>
    obtain ⟨-, -, -, -, -, -, -, hrest⟩ := hostAccess_frame acc { s with inputs := rest }
    exact ⟨_, hstep, hrest⟩
  | resetAssert => exact ⟨_, hstep, rfl⟩
  | resetRelease => exact ⟨_, hstep, rfl⟩

theorem run_schedule_ends_idle {s : State} {events : List Event} (hinputs : s.inputs = events) :
    ∃ t : State, Host.Core.run core (events.length + 1) s = .next t ∧ t.busy = false ∧ t.inputs = [] := by
  induction events generalizing s with
  | nil =>
    obtain ⟨t, hturn, hidle, hrest⟩ := engineTurn_ends_idle s
    exact ⟨t, (run_one s).trans ((step_of_empty hinputs).trans hturn), hidle, hrest.trans hinputs⟩
  | cons ev rest ih =>
    obtain ⟨u, hstep, hrest⟩ := step_takes_event hinputs
    obtain ⟨t, hrun, ht⟩ := ih hrest
    exact ⟨t, (run_succ_of_next hstep).trans hrun, ht⟩

/-- Settles O10, by induction on the schedule (`run_schedule_ends_idle`). -/
theorem finiteSchedulesEndIdle : Obligations.FiniteSchedulesEndIdle := fun _ => run_schedule_ends_idle rfl

/-! ### Reset (R200) -/

/-- Settles O16: both events are the model's named operations on the state. -/
theorem resetPutsEveryRegisterAtItsResetValue : Obligations.ResetPutsEveryRegisterAtItsResetValue := by
  refine fun s rest => ⟨fun hinputs => ⟨_, step_of_cons hinputs, ?registers⟩, fun hinputs => step_of_cons hinputs⟩
  simp [irq, errFlag]

/-- While `rst_n` is asserted an access does no more than be answered. -/
theorem hostAccess_in_reset (acc : Access) {s : State} (hreset : s.inReset = true) :
    hostAccess acc s = respond (Config.responseInReset s.responses.length acc) s := if_pos hreset

/-- Settles O17: the response is the free value. -/
theorem accessDuringResetHasNoEffect : Obligations.AccessDuringResetHasNoEffect :=
  fun s acc rest hreset hinputs => ⟨Config.responseInReset s.responses.length acc,
    (step_of_cons hinputs).trans
      (congrArg Host.Outcome.next (hostAccess_in_reset acc (s := { s with inputs := rest }) hreset))⟩

theorem getWord_zero (j : Fin 4) : getWord 0 j = 0 := by
  apply BitVec.eq_of_getLsbD_eq
  simp [getWord_getLsbD]

/-- Settles O19: the data registers hold 0 and so do their words; the map is `regAt_eq_some_iff`. -/
theorem resetRegistersReadAsListed : Obligations.ResetRegistersReadAsListed := by
  refine ⟨fun w => ?values, fun off w => regAt_eq_some_iff.trans eq_comm⟩
  cases w with
  | data x j => cases x <;> exact getWord_zero j
  | _ => decide

/-! ### The interrupt (R186) -/

theorem whenIdle_done {s next : State} (hnext : next.done = s.done) : (whenIdle s next).done = s.done := by
  rw [whenIdle]
  split
  · rfl
  · exact hnext

/-- Only a write of STATUS or CMD looks at DONE. -/
theorem writeReg_done {w : RegWord} (hstatus : w ≠ .status) (hcmd : w ≠ .cmd) (v : Word) (s : State) :
    (writeReg w v s).done = s.done := by
  cases w with
  | status => exact absurd rfl hstatus
  | cmd => exact absurd rfl hcmd
  | thresh => exact whenIdle_done rfl
  | data x j =>
    cases x with
    | a => exact whenIdle_done rfl
    | b => exact whenIdle_done rfl
    | e => exact whenIdle_done rfl
    | r => rfl
    | ord => rfl
  | id => rfl
  | ctrl => rfl
  | strength => rfl
  | verdict => rfl

/-- A write that drops DONE is a write of 1 to STATUS bit 1 or the issue of a command. -/
theorem writeReg_clears_done {w : RegWord} {v : Word} {s : State} (hset : s.done = true)
    (hclear : (writeReg w v s).done = false) :
    (w = .status ∧ v.getLsbD 1 = true) ∨ (w = .cmd ∧ s.busy = false) := by
  by_cases hstatus : w = .status
  · subst hstatus
    exact .inl ⟨rfl, by simpa [writeReg, hset] using hclear⟩
  by_cases hcmd : w = .cmd
  · subst hcmd
    refine .inr ⟨rfl, Bool.eq_false_iff.mpr fun hbusy => ?_⟩
    rw [writeReg, whenIdle_of_busy hbusy] at hclear
    exact Bool.false_ne_true (hclear.symm.trans hset)
  · simp [writeReg_done hstatus hcmd, hset] at hclear

/-- A host access is answered and changes no register, or is a legal write of a register word out of reset. -/
theorem hostAccess_cases (acc : Access) (s : State) :
    (∃ resp, hostAccess acc s = respond resp s) ∨
    (s.inReset = false ∧ ∃ w v, acc = write32 (offsetOf w) v ∧
      hostAccess acc s = respond .ok (writeReg w v s)) := by
  cases hreset : s.inReset with
  | true => exact .inl ⟨_, hostAccess_in_reset acc hreset⟩
  | false =>
    have hbus : hostAccess acc s = busAccess acc s := if_neg (by simp [hreset])
    rw [hbus]
    rcases busAccess_cases acc s with herror | ⟨w, hoff, hwidth, hmapped⟩
    · exact .inl ⟨_, herror⟩
    · obtain ⟨width, off, op⟩ := acc
      obtain rfl : off = offsetOf w := regAt_eq_some_iff.mp hoff
      obtain rfl : width = .bits32 := hwidth
      cases op with
      | read => exact .inl ⟨_, hmapped⟩
      | write v => exact .inr ⟨rfl, w, v, rfl, hmapped⟩

theorem engineTurn_done {s t : State} (h : engineTurn s = .next t) (hset : s.done = true) : t.done = true := by
  cases hbusy : s.busy with
  | false =>
    obtain rfl := Host.Outcome.next.inj ((engineTurn_of_idle hbusy).symm.trans h)
    exact hset
  | true =>
    obtain ⟨u, hturn, hdone, -⟩ := engineTurn_completes hbusy
    obtain rfl := Host.Outcome.next.inj (hturn.symm.trans h)
    exact hdone

/-- DONE falls only by a write of 1 to STATUS bit 1, an issue, or reset. -/
theorem step_clears_done {s t : State} (hstep : step s = .next t) (hset : s.done = true) (hclear : t.done = false) :
    (∃ v rest, s.inputs = .host (write32 (offsetOf .status) v) :: rest ∧ v.getLsbD 1 = true) ∨
    (∃ v rest, s.inputs = .host (write32 (offsetOf .cmd) v) :: rest ∧ s.busy = false) ∨
    (∃ rest, s.inputs = .resetAssert :: rest) := by
  rcases step_cases s with ⟨-, hturn⟩ | ⟨rest, -, hturn⟩ | ⟨acc, rest, hinputs, hhost⟩ | ⟨rest, hinputs, -⟩ |
    ⟨rest, -, hrelease⟩
  · simp [engineTurn_done (hturn.symm.trans hstep) hset] at hclear
  · simp [engineTurn_done (hturn.symm.trans hstep) hset] at hclear
  · obtain rfl := Host.Outcome.next.inj (hhost.symm.trans hstep)
    rcases hostAccess_cases acc { s with inputs := rest } with ⟨resp, hresp⟩ | ⟨-, w, v, rfl, hwrite⟩
    · rw [hresp] at hclear
      exact absurd (hclear.symm.trans hset) Bool.false_ne_true
    · rw [hwrite] at hclear
      rcases writeReg_clears_done (s := { s with inputs := rest }) hset hclear with ⟨rfl, hbit⟩ | ⟨rfl, hidle⟩
      · exact .inl ⟨v, rest, hinputs, hbit⟩
      · exact .inr (.inl ⟨v, rest, hinputs, hidle⟩)
  · exact .inr (.inr ⟨rest, hinputs⟩)
  · obtain rfl := Host.Outcome.next.inj (hrelease.symm.trans hstep)
    simp [hset] at hclear

/-- Settles O29: a completion sets DONE and keeps the enable (O9), DONE falls as `step_clears_done` says, and a CTRL
write replaces the enable alone. -/
theorem interruptIsSetAndClearedAsStated : Obligations.InterruptIsSetAndClearedAsStated := by
  refine ⟨fun s rest hnext hbusy => ?completion, fun s t => step_clears_done, fun s v rest hnext => ?enable⟩
  case completion =>
    obtain ⟨t, hstep, -, hdone, -, -, -, -, -, hie, -⟩ := everyEngineStepEndsItsCommand s rest hnext hbusy
    exact ⟨t, hstep, hdone, by rw [irq, hdone, hie, Bool.and_true]⟩
  case enable => exact ⟨_, step_write32_answered (w := .ctrl) hnext, rfl⟩

end Sys2Proof.Proofs
end

section
/-! PROOFS. The invariant: the reset values meet it, and each operation a step is made of keeps it. Out of reset
an operation answers only for the registers it writes; in reset nothing but the model's own fields changes. -/

namespace Sys2Proof.Proofs

open Sys2Proof.Machine Sys2Proof.Safety Sys2Proof.Laws

/-! ### States at their reset values -/

/-- Settles O20: the reset values meet each clause. -/
theorem resetMeetsTheInvariant : Obligations.ResetMeetsTheInvariant := by
  constructor <;> simp [State.reset, registersAtReset]

/-- No clause but the last looks at the model's own fields. -/
theorem blockInv_of_registersAtReset {s : State} (h : registersAtReset s) : BlockInv s := by
  have hs : s = { State.reset with inReset := s.inReset, inputs := s.inputs, responses := s.responses } := h
  obtain ⟨hbit, hcode, hclean, hord, hstrength, hselftest, hresults, -⟩ := resetMeetsTheInvariant
  rw [hs]
  exact ⟨hbit, hcode, hclean, hord, hstrength, hselftest, hresults, fun _ => rfl⟩

/-- Out of reset, a state that holds the same orders, verdicts and self-test bits need only have a legal code and a
clean pending command. -/
theorem blockInv_of_same_results {s t : State} (h : BlockInv s) (hord : t.ord = s.ord)
    (hstrength : t.strength = s.strength) (hsafe : t.safe = s.safe) (hstp : t.stp = s.stp) (hstf : t.stf = s.stf)
    (hcode : t.errcode.toNat ≤ 5) (hclean : t.busy = true → t.done = false ∧ t.errcode = 0)
    (hreset : t.inReset = false) : BlockInv t where
  oneSelftestBit := by rw [hstp, hstf]; exact h.oneSelftestBit
  errcodeLegal := hcode
  pendingClean := hclean
  ordIsGroupOrder := by rw [hord]; exact h.ordIsGroupOrder
  strengthBound := by rw [hstrength]; exact h.strengthBound
  ordNeedsSelftest := by rw [hord, hstp, hstf]; exact h.ordNeedsSelftest
  resultsNeedOrder := by rw [hstrength, hsafe, hord]; exact h.resultsNeedOrder
  heldInReset := fun hr => absurd (hreset.symm.trans hr) Bool.false_ne_true

theorem blockInv_complete {s : State} (h : BlockInv s) (hreset : s.inReset = false) (c : ErrCode) :
    BlockInv (complete c s) :=
  blockInv_of_same_results h rfl rfl rfl rfl rfl (errBits_le c) (fun hbusy => absurd hbusy Bool.false_ne_true) hreset

theorem blockInv_finishField {s : State} (h : BlockInv s) (hreset : s.inReset = false) (x : Elem) :
    BlockInv (finishField x s) :=
  blockInv_of_same_results h rfl rfl rfl rfl rfl (errBits_le .ok) (fun hbusy => absurd hbusy Bool.false_ne_true) hreset

theorem setOrder_gfOrder_ne_zero (x : Elem) (s : State) : (setOrder (gfOrder x) s).ord ≠ 0 := by
  intro hzero
  have hnat : gfOrder x = 0 := by rw [← gfOrder_toNat x, ← setOrder_ord (gfOrder x) s, hzero]; rfl
  exact gfOrder_ne_zero x hnat

/-- A group order may be written once a self-test has passed. -/
theorem blockInv_setOrder {s : State} (h : BlockInv s) (hreset : s.inReset = false) (hstp : s.stp = true)
    (x : Elem) : BlockInv (setOrder (gfOrder x) s) :=
  { h with
    ordIsGroupOrder := .inr (by rw [setOrder_ord, gfOrder_toNat]; exact gfOrder_dvd x)
    ordNeedsSelftest := fun _ => .inl hstp
    resultsNeedOrder := fun _ => setOrder_gfOrder_ne_zero x s
    heldInReset := fun hr => absurd (hreset.symm.trans hr) Bool.false_ne_true }

theorem blockInv_setStrength {s : State} (h : BlockInv s) (hreset : s.inReset = false) (hord : s.ord ≠ 0)
    (x : Elem) : BlockInv (setStrength (strengthOf (gfOrder x)) s) :=
  { h with
    strengthBound := by rw [setStrength_strength, strengthOf_gfOrder_toNat]; exact strengthOf_gfOrder_le x
    resultsNeedOrder := fun _ => hord
    heldInReset := fun hr => absurd (hreset.symm.trans hr) Bool.false_ne_true }

theorem blockInv_setVerdict {s : State} (h : BlockInv s) (hreset : s.inReset = false) (hord : s.ord ≠ 0)
    (v : Bool) : BlockInv (setVerdict v s) :=
  { h with
    resultsNeedOrder := fun _ => hord
    heldInReset := fun hr => absurd (hreset.symm.trans hr) Bool.false_ne_true }

theorem blockInv_selftestPass {s : State} (h : BlockInv s) (hreset : s.inReset = false) (hstf : s.stf = false) :
    BlockInv (selftestPass s) :=
  { blockInv_complete h hreset .ok with
    oneSelftestBit := fun hboth => absurd (hstf.symm.trans hboth.2) Bool.false_ne_true
    ordNeedsSelftest := fun _ => .inl rfl
    heldInReset := fun hr => absurd (hreset.symm.trans hr) Bool.false_ne_true }

theorem blockInv_selftestFail {s : State} (h : BlockInv s) (hreset : s.inReset = false) : BlockInv (selftestFail s) :=
  { blockInv_complete h hreset .selftest with
    oneSelftestBit := fun hboth => absurd hboth.1 Bool.false_ne_true
    ordNeedsSelftest := fun _ => .inr rfl
    heldInReset := fun hr => absurd (hreset.symm.trans hr) Bool.false_ne_true }

/-- Every command keeps the invariant, out of reset. -/
theorem blockInv_exec {i : Instr} {s t : State} (h : BlockInv s) (hreset : s.inReset = false)
    (hexec : exec i s = .next t) : BlockInv t := by
  have answer {u : State} (hu : Machine.exec i s = .next u) : t = u := Host.Outcome.next.inj (hexec.symm.trans hu)
  cases i with
  | nop => rw [answer rfl]; exact blockInv_complete h hreset .ok
  | gfmul => rw [answer rfl]; exact blockInv_finishField h hreset _
  | gfsqr => rw [answer rfl]; exact blockInv_finishField h hreset _
  | gfexp => rw [answer rfl]; exact blockInv_finishField h hreset _
  | gford =>
    rcases execGford_cases s with ⟨c, -, hs⟩ | ⟨-, hstp, -, hs⟩
    · rw [answer hs]; exact blockInv_complete h hreset c
    · rw [answer hs]; exact blockInv_complete (blockInv_setOrder h hreset hstp s.a) hreset .ok
  | gfstr =>
    rcases execGfstr_cases s with ⟨c, -, hs⟩ | ⟨-, hstp, -, hs⟩
    · rw [answer hs]; exact blockInv_complete h hreset c
    · rw [answer hs]
      have hord := blockInv_setOrder h hreset hstp s.a
      have hstrength := blockInv_setStrength hord hreset (setOrder_gfOrder_ne_zero s.a s) s.a
      exact blockInv_complete hstrength hreset .ok
  | gfjdg =>
    rcases execGfjdg_cases s with ⟨c, -, hs⟩ | ⟨-, hstp, -, -, -, hs⟩
    · rw [answer hs]; exact blockInv_complete h hreset c
    · rw [answer hs]
      have hne := setOrder_gfOrder_ne_zero s.a s
      have hord := blockInv_setOrder h hreset hstp s.a
      have hstrength := blockInv_setStrength hord hreset hne s.a
      exact blockInv_complete (blockInv_setVerdict hstrength hreset hne _) hreset .ok
  | selftest =>
    rcases execSelftest_cases s with ⟨hs, -⟩ | ⟨hs, hstf⟩ | ⟨hs, -⟩
    · rw [answer hs]; exact blockInv_complete h hreset .selftest
    · rw [answer hs]; exact blockInv_selftestPass h hreset hstf
    · rw [answer hs]; exact blockInv_selftestFail h hreset

/-- A write issues a command, or leaves BUSY and ERRCODE as they are and does not raise DONE. -/
theorem writeReg_issues_or_keeps (w : RegWord) (v : Word) (s : State) :
    writeReg w v s = issue v s ∨
    ((writeReg w v s).busy = s.busy ∧ (writeReg w v s).errcode = s.errcode ∧
      (s.done = false → (writeReg w v s).done = false)) := by
  cases hbusy : s.busy with
  | true =>
    obtain ⟨hb, -, -, -, -, -, herr, hdone⟩ := writeReg_busy w v hbusy
    exact .inr ⟨hb, herr, hdone⟩
  | false =>
    cases w with
    | cmd => exact .inl (whenIdle_of_idle hbusy _)
    | data x j => cases x <;> simp [writeReg, writeData, whenIdle_of_idle hbusy, hbusy]
    | _ => simp +contextual [writeReg, whenIdle_of_idle hbusy, hbusy]

/-- A write issues a command, which begins clean, or leaves ERRCODE and a clean pending command as they are. -/
theorem blockInv_writeReg {s : State} (h : BlockInv s) (hreset : s.inReset = false) (w : RegWord) (v : Word) :
    BlockInv (writeReg w v s) := by
  obtain ⟨-, hord, hstrength, hsafe, hstp, hstf, hkept, -, -⟩ := writeReg_frame w v s
  refine blockInv_of_same_results h hord hstrength hsafe hstp hstf ?code ?clean (hkept.trans hreset)
  case code =>
    rcases writeReg_issues_or_keeps w v s with hissue | ⟨-, herr, -⟩
    · rw [hissue]
      exact errBits_le .ok
    · rw [herr]
      exact h.errcodeLegal
  case clean =>
    rcases writeReg_issues_or_keeps w v s with hissue | ⟨hbusy, herr, hdone⟩
    · rw [hissue]
      exact fun _ => ⟨rfl, rfl⟩
    · intro hpending
      obtain ⟨hclear, hzero⟩ := h.pendingClean (hbusy.symm.trans hpending)
      exact ⟨hdone hclear, herr.trans hzero⟩

theorem busy_of_registersAtReset {s : State} (h : registersAtReset s) : s.busy = false := by
  have hs : s = { State.reset with inReset := s.inReset, inputs := s.inputs, responses := s.responses } := h
  rw [hs]
  rfl

/-- In reset the engine is idle and an access is only answered; out of reset a busy engine completes an ILLEGAL word or
runs a command. -/
theorem blockInv_engineTurn {s t : State} (h : BlockInv s) (hturn : engineTurn s = .next t) : BlockInv t := by
  cases hbusy : s.busy with
  | false =>
    obtain rfl := Host.Outcome.next.inj ((engineTurn_of_idle hbusy).symm.trans hturn)
    exact h
  | true =>
    have hreset : s.inReset = false := Bool.eq_false_iff.mpr fun hr =>
      Bool.false_ne_true ((busy_of_registersAtReset (h.heldInReset hr)).symm.trans hbusy)
    rcases engineTurn_of_busy hbusy with hillegal | ⟨i, -, hexec⟩
    · obtain rfl := Host.Outcome.next.inj (hillegal.symm.trans hturn)
      exact blockInv_complete h hreset .illegal
    · exact blockInv_exec h hreset (hexec.symm.trans hturn)

/-- The model's own record and schedule are no part of the invariant. -/
theorem blockInv_schedule {s : State} (h : BlockInv s) (rest : List Event) (resps : List BusResponse) :
    BlockInv { s with inputs := rest, responses := resps } := by
  obtain ⟨hbit, hcode, hclean, hord, hstrength, hselftest, hresults, hheld⟩ := h
  refine ⟨hbit, hcode, hclean, hord, hstrength, hselftest, hresults, fun hr => ?_⟩
  have hs : s = { State.reset with inReset := s.inReset, inputs := s.inputs, responses := s.responses } := hheld hr
  rw [registersAtReset, hs]

theorem blockInv_hostAccess {s : State} (h : BlockInv s) (acc : Access) : BlockInv (hostAccess acc s) := by
  rcases hostAccess_cases acc s with ⟨resp, hresp⟩ | ⟨hreset, w, v, -, hwrite⟩
  · rw [hresp]
    exact blockInv_schedule h s.inputs (s.responses ++ [resp])
  · rw [hwrite]
    exact blockInv_schedule (blockInv_writeReg h hreset w v) _ _

theorem blockInv_releaseReset {s : State} (h : BlockInv s) : BlockInv (releaseReset s) :=
  blockInv_of_same_results h rfl rfl rfl rfl rfl h.errcodeLegal h.pendingClean rfl

/-- Settles O21: a step is an engine's turn, a host access or a change of the reset input, each of which keeps the
invariant; asserting reset establishes it afresh. -/
theorem stepKeepsTheInvariant : Obligations.StepKeepsTheInvariant := by
  intro s t h hstep
  have hrest (rest : List Event) : BlockInv { s with inputs := rest } := blockInv_schedule h rest s.responses
  have answer {u : State} (hu : step s = .next u) : t = u := Host.Outcome.next.inj (hstep.symm.trans hu)
  rcases step_cases s with ⟨-, hs⟩ | ⟨rest, -, hs⟩ | ⟨acc, rest, -, hs⟩ | ⟨rest, -, hs⟩ | ⟨rest, -, hs⟩
  · exact blockInv_engineTurn h (hs.symm.trans hstep)
  · exact blockInv_engineTurn (hrest rest) (hs.symm.trans hstep)
  · rw [answer hs]
    exact blockInv_hostAccess (hrest rest) acc
  · rw [answer hs]
    exact blockInv_of_registersAtReset rfl
  · rw [answer hs]
    exact blockInv_releaseReset (hrest rest)

end Sys2Proof.Proofs
end

section
/-! PROOFS. 128-bit transfers (R24, R77, R215): a host's word writes load an operand, and its word reads return the
values of their own times, because a command looks at neither the schedule nor the record of responses. -/

namespace Sys2Proof.Proofs

open Sys2Proof.Machine Sys2Proof.Safety Sys2Proof.Laws

/-! ### Loading an operand (R77) -/

/-- A host's legal write of a value to a register word. -/
def writeEvent (p : RegWord × Word) : Event := .host (write32 (offsetOf p.1) p.2)

/-- What a list of legal writes does to the registers, in order. -/
def writeRegs (ps : List (RegWord × Word)) (s : State) : State := ps.foldl (fun u p => writeReg p.1 p.2 u) s

theorem writeReg_responses (w : RegWord) (v : Word) (s : State) : (writeReg w v s).responses = s.responses := by
  obtain ⟨-, -, -, -, -, -, -, -, hresponses⟩ := writeReg_frame w v s
  exact hresponses

theorem writeRegs_schedule (ps : List (RegWord × Word)) (s : State) (rest : List Event) (resps : List BusResponse) :
    writeRegs ps { s with inputs := rest, responses := resps } =
      { writeRegs ps s with inputs := rest, responses := resps } := by
  induction ps generalizing s with
  | nil => rfl
  | cons p ps ih =>
    rw [writeRegs, List.foldl_cons, writeReg_schedule]
    exact ih (writeReg p.1 p.2 s)

/-- Out of reset a host's writes of mapped words are taken one by one, and each is answered. -/
theorem run_hostWrites (ps : List (RegWord × Word)) {s : State} {rest : List Event} (hreset : s.inReset = false)
    (hinputs : s.inputs = ps.map writeEvent ++ rest) :
    Host.Core.run core ps.length s =
      .next { writeRegs ps s with inputs := rest, responses := s.responses ++ List.replicate ps.length .ok } := by
  induction ps generalizing s with
  | nil =>
    obtain rfl : s.inputs = rest := hinputs
    simp [Host.Core.run, writeRegs]
  | cons p ps ih =>
    have hstep : step s = .next (answered .ok (ps.map writeEvent ++ rest) (writeReg p.1 p.2 s)) :=
      step_write32_answered ⟨hreset, hinputs⟩
    obtain ⟨-, -, -, -, -, -, hkept, -, -⟩ := writeReg_frame p.1 p.2 s
    have hrun := ih (s := answered .ok (ps.map writeEvent ++ rest) (writeReg p.1 p.2 s)) (hkept.trans hreset) rfl
    refine (run_succ_of_next hstep).trans (hrun.trans ?_)
    rw [answered, writeRegs_schedule, writeReg_responses, List.length_cons, List.replicate_succ, ← List.append_cons]
    rfl

/-- The four word writes of `ld128`. -/
def loadWrites (x : Reg128) (v : Elem) : List (RegWord × Word) :=
  [(.data x 0, getWord v 0), (.data x 1, getWord v 1), (.data x 2, getWord v 2), (.data x 3, getWord v 3)]

theorem hostEvents_ld128 (x : Reg128) (v : Elem) : hostEvents (ld128 x v) = (loadWrites x v).map writeEvent := rfl

theorem wordShift_add_lt (j : Fin 4) : wordShift j + 32 ≤ 128 := by unfold wordShift; omega

theorem getWord_setWord_same (x : Elem) (j : Fin 4) (v : Word) : getWord (setWord x j v) j = v := by
  apply BitVec.eq_of_getLsbD_eq
  intro i hi
  have htop := wordShift_add_lt j
  rw [getWord_getLsbD, setWord_getLsbD x j v _ (by omega), if_pos (by omega), Nat.add_sub_cancel_left,
    decide_eq_true hi, Bool.true_and]

/-- The words of a register do not overlap (R24). -/
theorem getWord_setWord_of_ne {j k : Fin 4} (h : k ≠ j) (x : Elem) (v : Word) :
    getWord (setWord x j v) k = getWord x k := by
  apply BitVec.eq_of_getLsbD_eq
  intro i hi
  have htop := wordShift_add_lt k
  have hapart : wordShift k + 32 ≤ wordShift j ∨ wordShift j + 32 ≤ wordShift k := by unfold wordShift; omega
  rw [getWord_getLsbD, setWord_getLsbD x j v _ (by omega), if_neg (by omega), getWord_getLsbD]

/-- A value is its four words, wherever they are written. -/
theorem setWord_four_words (x v : Elem) :
    setWord (setWord (setWord (setWord x 0 (getWord v 0)) 1 (getWord v 1)) 2 (getWord v 2)) 3 (getWord v 3) = v := by
  rw [← joinWords_getWord (setWord _ 3 _), ← joinWords_getWord v]
  simp [getWord_setWord_same, getWord_setWord_of_ne, joinWords_getWord]

theorem run_ld128 {x : Reg128} {v : Elem} {s : State} {rest : List Event} (hreset : s.inReset = false)
    (hinputs : s.inputs = hostEvents (ld128 x v) ++ rest) :
    Host.Core.run core 4 s = .next { writeRegs (loadWrites x v) s with
      inputs := rest, responses := s.responses ++ [.ok, .ok, .ok, .ok] } :=
  run_hostWrites (loadWrites x v) hreset (hostEvents_ld128 x v ▸ hinputs)

theorem writeRegs_loadWrites_a (v : Elem) {s : State} (hidle : s.busy = false) :
    writeRegs (loadWrites .a v) s = { s with a := v } := by
  simp [writeRegs, loadWrites, writeReg, writeData, whenIdle, hidle, setWord_four_words]

theorem writeRegs_loadWrites_b (v : Elem) {s : State} (hidle : s.busy = false) :
    writeRegs (loadWrites .b v) s = { s with b := v } := by
  simp [writeRegs, loadWrites, writeReg, writeData, whenIdle, hidle, setWord_four_words]

theorem writeRegs_loadWrites_e (v : Elem) {s : State} (hidle : s.busy = false) :
    writeRegs (loadWrites .e v) s = { s with e := v } := by
  simp [writeRegs, loadWrites, writeReg, writeData, whenIdle, hidle, setWord_four_words]

/-- Settles O32: the four writes are taken (`run_ld128`), each replaces its own word, and the four words are the
value. -/
theorem ld128LoadsTheRegister : Obligations.Ld128LoadsTheRegister := by
  refine fun s v rest hreset hidle => ⟨fun hinputs => ?a, fun hinputs => ?b, fun hinputs => ?e⟩
  case a => rw [run_ld128 hreset hinputs, writeRegs_loadWrites_a v hidle]
  case b => rw [run_ld128 hreset hinputs, writeRegs_loadWrites_b v hidle]
  case e => rw [run_ld128 hreset hinputs, writeRegs_loadWrites_e v hidle]

/-! ### A torn 128-bit read (R215) -/

/-- The state with another schedule and record, which no command looks at. -/
def withSchedule (rest : List Event) (resps : List BusResponse) (s : State) : State :=
  { s with inputs := rest, responses := resps }

theorem complete_withSchedule (c : ErrCode) (rest : List Event) (resps : List BusResponse) (s : State) :
    complete c (withSchedule rest resps s) = withSchedule rest resps (complete c s) := rfl

theorem orComplete_withSchedule (c : ErrCode) (rest : List Event) (resps : List BusResponse) (s t : State) :
    orComplete c (withSchedule rest resps s) (withSchedule rest resps t) =
      withSchedule rest resps (orComplete c s t) := by
  unfold orComplete
  split <;> rfl

theorem finishField_withSchedule (x : Elem) (rest : List Event) (resps : List BusResponse) (s : State) :
    finishField x (withSchedule rest resps s) = withSchedule rest resps (finishField x s) := rfl

@[simp] theorem withSchedule_a (rest : List Event) (resps : List BusResponse) (s : State) :
    (withSchedule rest resps s).a = s.a := rfl

@[simp] theorem withSchedule_b (rest : List Event) (resps : List BusResponse) (s : State) :
    (withSchedule rest resps s).b = s.b := rfl

@[simp] theorem withSchedule_e (rest : List Event) (resps : List BusResponse) (s : State) :
    (withSchedule rest resps s).e = s.e := rfl

/-- A command does the same whatever the schedule and the record are. -/
theorem exec_withSchedule {i : Instr} {s t : State} (h : exec i s = .next t) (rest : List Event)
    (resps : List BusResponse) : exec i (withSchedule rest resps s) = .next (withSchedule rest resps t) := by
  have answer {u : State} (hu : exec i s = .next u) : t = u := Host.Outcome.next.inj (h.symm.trans hu)
  cases i with
  | nop => rw [answer rfl]; rfl
  | gfmul => rw [answer (exec_gfmul s), exec_gfmul, finishField_withSchedule, withSchedule_a, withSchedule_b]
  | gfsqr => rw [answer (exec_gfsqr s), exec_gfsqr, finishField_withSchedule, withSchedule_a]
  | gfexp => rw [answer (exec_gfexp s), exec_gfexp, finishField_withSchedule, withSchedule_a, withSchedule_e]
  | gford => rw [answer rfl, ← orComplete_withSchedule, ← orComplete_withSchedule]; rfl
  | gfstr => rw [answer rfl, ← orComplete_withSchedule, ← orComplete_withSchedule]; rfl
  | gfjdg =>
    rw [answer rfl, ← orComplete_withSchedule, ← orComplete_withSchedule, ← orComplete_withSchedule]; rfl
  | selftest =>
    cases hstf : s.stf with
    | true => rw [answer (exec_selftest_of_stf hstf)]; exact exec_selftest_of_stf hstf
    | false => rw [answer (exec_selftest_of_not_stf hstf)]; exact exec_selftest_of_not_stf hstf

theorem engineStep_withSchedule {s t : State} (h : engineStep s = .next t) (rest : List Event)
    (resps : List BusResponse) : engineStep (withSchedule rest resps s) = .next (withSchedule rest resps t) := by
  have hcmd : decode (fetchWord (withSchedule rest resps s)) = decode (fetchWord s) := rfl
  rw [engineStep] at h ⊢
  rw [hcmd]
  cases hdecode : decode (fetchWord s) with
  | illegal why =>
    rw [hdecode] at h
    obtain rfl := Host.Outcome.next.inj h
    rfl
  | command i =>
    rw [hdecode] at h
    exact exec_withSchedule h rest resps

theorem withSchedule_withSchedule (rest rest' : List Event) (resps resps' : List BusResponse) (s : State) :
    withSchedule rest' resps' (withSchedule rest resps s) = withSchedule rest' resps' s := rfl

/-- A host's legal read of a register word. -/
def readEvent (w : RegWord) : Event := .host (read32 (offsetOf w))

theorem readReg_withSchedule (w : RegWord) (rest : List Event) (resps : List BusResponse) (s : State) :
    readReg w (withSchedule rest resps s) = readReg w s := by
  cases w with
  | data x j => cases x <;> rfl
  | _ => rfl

/-- The answers to reads of some words, each with the value the word has now. -/
def readAnswers (ws : List RegWord) (s : State) : List BusResponse := ws.map fun w => .data (readReg w s)

/-- Out of reset a host's reads are answered one by one with the values as they stand, and nothing changes. -/
theorem run_hostReads (ws : List RegWord) {s : State} {rest : List Event} (hreset : s.inReset = false)
    (hinputs : s.inputs = ws.map readEvent ++ rest) (n : Nat) :
    Host.Core.run core (ws.length + n) s =
      Host.Core.run core n (withSchedule rest (s.responses ++ readAnswers ws s) s) := by
  induction ws generalizing s with
  | nil =>
    obtain rfl : s.inputs = rest := hinputs
    rw [readAnswers, List.map_nil, List.append_nil, List.length_nil, Nat.zero_add]
    rfl
  | cons w ws ih =>
    have hstep : step s = .next (withSchedule (ws.map readEvent ++ rest) (s.responses ++ [.data (readReg w s)]) s) :=
      step_read32 ⟨hreset, hinputs⟩
    have hrun := ih (s := withSchedule (ws.map readEvent ++ rest) (s.responses ++ [.data (readReg w s)]) s) hreset rfl
    rw [List.length_cons, Nat.add_right_comm]
    refine (run_succ_of_next hstep).trans (hrun.trans ?_)
    simp only [readAnswers, readReg_withSchedule, withSchedule_withSchedule, List.map_cons]
    simp [withSchedule]

/-- The engine's step of a busy block, standing next in the schedule. -/
theorem step_engineStep {s u : State} (hbusy : s.busy = true) (h : engineStep s = .next u) (rest : List Event)
    (resps : List BusResponse) :
    step (withSchedule (.engine :: rest) resps s) = .next (withSchedule rest resps u) := by
  have hturn : engineTurn (withSchedule rest resps s) = engineStep (withSchedule rest resps s) := if_pos hbusy
  exact (step_of_engineIsNext (.inr rfl)).trans (hturn.trans (engineStep_withSchedule h rest resps))

theorem engineStep_keeps_inReset {s u : State} (hbusy : s.busy = true) (h : engineStep s = .next u) :
    u.inReset = s.inReset := by
  have hturn : engineTurn s = engineStep s := if_pos hbusy
  obtain ⟨t, ht, -, -, hreset, -⟩ := engineTurn_completes hbusy
  obtain rfl : t = u := Host.Outcome.next.inj (ht.symm.trans (hturn.trans h))
  exact hreset

/-- Reads before and after the engine's step return the old values and the new ones. -/
theorem run_reads_engine_reads (before after : List RegWord) {s u : State} {rest : List Event}
    (hreset : s.inReset = false) (hbusy : s.busy = true) (hengine : engineStep s = .next u)
    (hinputs : s.inputs = before.map readEvent ++ .engine :: (after.map readEvent ++ rest)) :
    Host.Core.run core (before.length + (after.length + 1)) s =
      .next (withSchedule rest (s.responses ++ readAnswers before s ++ readAnswers after u) u) := by
  have hfirst := run_hostReads before hreset hinputs (after.length + 1)
  have hstep := step_engineStep hbusy hengine (after.map readEvent ++ rest) (s.responses ++ readAnswers before s)
  have hsecond := run_hostReads after
    (s := withSchedule (after.map readEvent ++ rest) (s.responses ++ readAnswers before s) u)
    ((engineStep_keeps_inReset hbusy hengine).trans hreset) rfl 0
  refine hfirst.trans ((run_succ_of_next hstep).trans (hsecond.trans ?_))
  simp only [readAnswers, readReg_withSchedule, withSchedule_withSchedule]
  rfl

/-- Reads of some words of a 128-bit register answer those words of its value. -/
theorem readAnswers_data (x : Reg128) (js : List (Fin 4)) (s : State) :
    readAnswers (js.map (RegWord.data x)) s = js.map fun j => .data (getWord (readReg128 x s) j) :=
  List.map_map

/-- Settles O33: the first k reads stand before the engine's step and the others after it
(`run_reads_engine_reads`). -/
theorem eachWordReadIsTheValueAtItsOwnTime : Obligations.EachWordReadIsTheValueAtItsOwnTime := by
  intro s u x k rest hk hreset hbusy hengine hinputs
  have hlength : (([0, 1, 2, 3] : List (Fin 4)).take k).length + ((([0, 1, 2, 3] : List (Fin 4)).drop k).length + 1)
      = 5 := by
    rw [List.length_take, List.length_drop, List.length_cons, List.length_cons]
    simp
    omega
  have hevents : hostEvents (rd128 x 0) = (([0, 1, 2, 3] : List (Fin 4)).map (RegWord.data x)).map readEvent := rfl
  rw [hevents, ← List.map_take, ← List.map_drop, ← List.map_take, ← List.map_drop] at hinputs
  have hrun := run_reads_engine_reads _ _ hreset hbusy hengine hinputs
  rw [List.length_map, List.length_map, hlength] at hrun
  refine ⟨_, hrun, rfl, rfl, ?answers, joinWords_getWord (readReg128 x u)⟩
  rw [← readAnswers_data, ← readAnswers_data]
  rfl

end Sys2Proof.Proofs
end
